-- ==== Sys2Proof/Word.lean ====
section
/-! DEFINITION. The word types of the IDCFG codec: the widths the spec gives its values (00_scope.md R6, R10; 10_state.md). -/

namespace Sys2Proof

/-- One payload byte (R12), and the width of CUR_ID and REQ_ID (R10). -/
abbrev Byte := BitVec 8

/-- The 16-bit `reply_address` (R49). -/
abbrev Half := BitVec 16

/-- An arbitration identifier, ARB_W = 32 bits (R6, R28). -/
abbrev Arb := BitVec 32

/-- The 64-bit word P of an 8-byte payload (R12). -/
abbrev PWord := BitVec 64

end Sys2Proof
end

