-- ==== Sys2Proof/Config.lean ====
section
/-! DEFINITION. The fixed constants of the block (R6) and the default values of its open parameters (R7, R8, R9). -/

namespace Sys2Proof.Config

/-- CMD_CODE (R6). -/
abbrev cmdCode : Byte := 0x79

/-- WRITE_FLAG (R6). -/
abbrev writeFlag : Byte := 0x00

/-- READ_FLAG (R6). -/
abbrev readFlag : Byte := 0x01

/-- FRAME_LEN (R6). -/
abbrev frameLen : Nat := 8

/-- ID_MIN (R6). -/
abbrev idMin : Int := 1

/-- ID_MAX (R6). -/
abbrev idMax : Int := 32

/-- The default of parameter ID_MASK (R7); the parameter itself is `State.cfgIdMask` (log entry 6). -/
abbrev idMaskDefault : Byte := 0x1F

/-- The one documented alternative of parameter ID_MASK (R7). -/
abbrev idMaskAlternative : Byte := 0x2F

/-- The default of parameter SETTING_ARB_ID (R8); the parameter itself is `State.cfgArbId` (log entry 6). -/
abbrev settingArbIdDefault : Arb := 0x300

/-- The default of parameter RESP_TIMEOUT (R9), its unit open; the parameter itself is `State.respTimeout` (log entry 6). -/
abbrev respTimeoutDefault : Nat := 1

end Sys2Proof.Config
end

