-- ==== Sys2Proof/Syntax.lean ====
section
/-! DEFINITION. The operations of the block as syntax: the sequencer's states, payloads, the textual operations of R56, the
input ports of R67 and R80, and `Instr`, one constructor per row of the operation table. -/

namespace Sys2Proof

/-- The six values of register STATE (R16). -/
inductive SeqState where
  | idle
  | awaitReadReply
  | haveCurrentId
  | awaitWriteReply
  | done
  | aborted
  deriving DecidableEq, Repr

/-- The transport's answer `tx` to a send (R37). -/
inductive TxResult where
  | ok
  | err
  deriving DecidableEq, Repr

/-- An 8-byte payload (R12, R32): `b<i>` is `byte[i]`. -/
structure Payload where
  b0 : Byte
  b1 : Byte
  b2 : Byte
  b3 : Byte
  b4 : Byte
  b5 : Byte
  b6 : Byte
  b7 : Byte
  deriving DecidableEq, Repr

/-- An operation in the notation of R56, over the model-level domains (R10): `new_id` is any integer and a received
payload is a byte sequence of any length. -/
inductive Operation where
  | encRd
  | encWr (newId : Int)
  | decRply (rxArb : Arb) (raw : List Byte) (expArb : Arb)
  | start (tx : TxResult)
  | proceedWrite (newId : Int) (tx : TxResult)
  | declineWrite
  | rx (rxArb : Arb) (raw : List Byte)
  | timeout
  | reset
  deriving DecidableEq, Repr

/-- A received payload as the ports show it (R67): `rxLen` counts its bytes, 9 to 15 meaning more than eight, and `rxData`
shows the first eight. The last two fields are no ports: they are the bytes past the eighth that an oversize frame has and
the ports do not show, free data of the transport (DESIGN CHOICE, log entry 8). -/
structure RxFrame where
  rxLen : BitVec 4
  rxData : PWord
  ninth : Byte
  beyond : List Byte
  deriving DecidableEq, Repr

/-- The input ports of unit SEQ (R80), and the reset input (R96), at one transition. -/
structure SeqPorts where
  reset : BitVec 1
  cmd : BitVec 2
  cmdNewId : BitVec 8
  txResult : BitVec 1
  rxEvent : BitVec 2
  rxArb : Arb
  rx : RxFrame
  deriving DecidableEq, Repr

/-- What another user of the bus handle does on it (R42, R98, R100). -/
inductive HandleAccess where
  | send
  | recv
  deriving DecidableEq, Repr

/-- What the outside world gives the block in one step. Where a received frame comes from shows at no port (R101: 'the block
cannot tell the difference'), so the two last constructors are the transport's own knowledge, kept as input data for claims
to speak of (DESIGN CHOICE, log entry 16). -/
inductive Input where
  /-- An operation at the model level. -/
  | op (o : Operation)
  /-- An encoder operation named by its request word (rows ENC_RD and ENC_WR of the table). -/
  | req (word : PWord)
  /-- The decoder's ports (R67). -/
  | rply (rxArb : Arb) (rx : RxFrame) (expArb : Arb)
  /-- The sequencer's ports (R80); a frame delivered here is one that another party sent. -/
  | seq (p : SeqPorts)
  /-- Event RX in which the transport hands the block a frame of its own, looped back or left over (R98 (4), R101). -/
  | ownFrame (arb : Arb) (p : Payload)
  /-- An access of another user to the same bus handle (R98 (3), R100): nothing arrives at the block. -/
  | otherUser (access : HandleAccess)
  deriving DecidableEq, Repr

/-- The thirteen rows of the operation table, with the operands the rules give them. -/
inductive Instr where
  /-- ENC_RD (R58). -/
  | encRd
  /-- ENC_WR (R59). -/
  | encWr (newId : Int)
  /-- DEC_RPLY.READOK (R60, R61). -/
  | decRplyReadOk (rxArb : Arb) (raw : List Byte) (expArb : Arb)
  /-- DEC_RPLY.WRITEECHO (R60, R62). -/
  | decRplyWriteEcho (rxArb : Arb) (raw : List Byte) (expArb : Arb)
  /-- DEC_RPLY.INVALID (R60, R63). -/
  | decRplyInvalid (rxArb : Arb) (raw : List Byte) (expArb : Arb)
  /-- START (R69). -/
  | start (tx : TxResult)
  /-- PROCEED_WRITE (R73). -/
  | proceedWrite (newId : Int) (tx : TxResult)
  /-- DECLINE_WRITE (R72). -/
  | declineWrite
  /-- RX.READ (R71). -/
  | rxRead (rxArb : Arb) (raw : List Byte)
  /-- RX.WRITE (R75). -/
  | rxWrite (rxArb : Arb) (raw : List Byte)
  /-- TIMEOUT.READ (R70). -/
  | timeoutRead
  /-- TIMEOUT.WRITE (R74). -/
  | timeoutWrite
  /-- RESET (R96). -/
  | reset
  deriving DecidableEq, Repr

end Sys2Proof
end

