-- ==== Sys2Proof/WellFormed.lean ====
section
/-! DEFINITION. Which terms of `Instr` stand for what their row names (R51 for the three DEC_RPLY rows), and which operands
the ports can carry (R10, R59). -/

namespace Sys2Proof

/-- The four tests of R51 on the bytes themselves, for a reply whose direction flag is `dir`. -/
def isReply (dir : Byte) (rxArb : Arb) (raw : List Byte) (expArb : Arb) : Bool :=
  match raw with
  | [b0, _, b2, _, _, _, _, _] =>
    decide (rxArb = expArb) && decide (b0 = Config.cmdCode) && decide (b2 = dir)
  | _ => false

/-- A DEC_RPLY row is well formed when its operands are of that row (R51); every other row always is. -/
def Instr.wellFormed : Instr → Bool
  | .encRd => true
  | .encWr _ => true
  | .decRplyReadOk rxArb raw expArb => isReply Config.readFlag rxArb raw expArb
  | .decRplyWriteEcho rxArb raw expArb => isReply Config.writeFlag rxArb raw expArb
  | .decRplyInvalid rxArb raw expArb =>
    !isReply Config.readFlag rxArb raw expArb && !isReply Config.writeFlag rxArb raw expArb
  | .start _ => true
  | .proceedWrite _ _ => true
  | .declineWrite => true
  | .rxRead _ _ => true
  | .rxWrite _ _ => true
  | .timeoutRead => true
  | .timeoutWrite => true
  | .reset => true

/-- `new_id` fits its port: NEWID_W = 8 bits unsigned (R10, R59). -/
def fitsNewId (newId : Int) : Bool := decide (0 ≤ newId) && decide (newId < 256)

/-- The operands fit the ports (R10). A received payload of any length does, since the bytes past the eighth show at no
port. -/
def Instr.fitsPorts : Instr → Bool
  | .encRd => true
  | .encWr newId => fitsNewId newId
  | .decRplyReadOk _ _ _ => true
  | .decRplyWriteEcho _ _ _ => true
  | .decRplyInvalid _ _ _ => true
  | .start _ => true
  | .proceedWrite newId _ => fitsNewId newId
  | .declineWrite => true
  | .rxRead _ _ => true
  | .rxWrite _ _ => true
  | .timeoutRead => true
  | .timeoutWrite => true
  | .reset => true

end Sys2Proof
end

