-- ==== Sys2Proof/Decode.lean ====
section
/-! DEFINITION. From an input to the table row it asks for, and back. The block fetches no instruction words (R43): what
stands for them here are the payload words of R45 and R46, the port codes of R80 and the operations of R56. -/

namespace Sys2Proof

/-! ## Payload words (R11, R12) -/

/-- `P[8*i+7 : 8*i]` (R12). -/
def byteAt (w : PWord) (i : Nat) : Byte := w.extractLsb' (8 * i) 8

/-- A byte at its place `P[8*i+7 : 8*i]`, every other bit 0 (R12). -/
def placed (b : Byte) (i : Nat) : PWord := b.zeroExtend 64 <<< (8 * i)

/-- The 64-bit word P of a payload, `byte[0]` least significant (R12). -/
def Payload.word (p : Payload) : PWord :=
  placed p.b0 0 ||| placed p.b1 1 ||| placed p.b2 2 ||| placed p.b3 3 ||| placed p.b4 4 ||| placed p.b5 5
    ||| placed p.b6 6 ||| placed p.b7 7

/-- The payload of a 64-bit word P (R12). -/
def Payload.ofWord (w : PWord) : Payload :=
  ⟨byteAt w 0, byteAt w 1, byteAt w 2, byteAt w 3, byteAt w 4, byteAt w 5, byteAt w 6, byteAt w 7⟩

/-- The bytes of a payload, `byte[0]` first (R12). -/
def Payload.bytes (p : Payload) : List Byte := [p.b0, p.b1, p.b2, p.b3, p.b4, p.b5, p.b6, p.b7]

/-- The payload of a byte sequence of exactly FRAME_LEN bytes; none for every other length (R32). -/
def Payload.ofBytes? : List Byte → Option Payload
  | [b0, b1, b2, b3, b4, b5, b6, b7] => some ⟨b0, b1, b2, b3, b4, b5, b6, b7⟩
  | _ => none

/-- The first eight bytes of a byte sequence, absent ones as zero: what `rx_data` may show for it (R67: bytes at index
`rx_len` and above carry no value). -/
def Payload.padded (raw : List Byte) : Payload :=
  ⟨raw.getD 0 0, raw.getD 1 0, raw.getD 2 0, raw.getD 3 0, raw.getD 4 0, raw.getD 5 0, raw.getD 6 0, raw.getD 7 0⟩

/-- The byte sequence the decoder's ports stand for (R67): `rx_len` bytes of `rx_data` up to eight, and more than eight
bytes where `rx_len` is 9 to 15. -/
def RxFrame.raw (f : RxFrame) : List Byte :=
  if f.rxLen.toNat ≤ Config.frameLen then (Payload.ofWord f.rxData).bytes.take f.rxLen.toNat
  else (Payload.ofWord f.rxData).bytes ++ f.ninth :: f.beyond

/-- A way the ports show a byte sequence (R67). -/
def RxFrame.ofRaw (raw : List Byte) : RxFrame where
  rxLen := if raw.length ≤ Config.frameLen then BitVec.ofNat 4 raw.length else 9
  rxData := (Payload.padded raw).word
  ninth := raw.getD 8 0
  beyond := raw.drop 9

/-- No frame at the ports. -/
def RxFrame.empty : RxFrame := ⟨0, 0, 0, []⟩

/-- The sequencer's ports with nothing asked: `reset`, `cmd` and `rx_event` all 0 (R80). -/
def SeqPorts.quiet : SeqPorts := ⟨0, 0, 0, 0, 0, 0, RxFrame.empty⟩

/-- `tx_result`: 0 ok, 1 err (R80). -/
def TxResult.ofBit (b : BitVec 1) : TxResult := if b = 0 then .ok else .err

/-- `tx_result`: 0 ok, 1 err (R80). -/
def TxResult.bit : TxResult → BitVec 1
  | .ok => 0
  | .err => 1

/-! ## Classification (R51) -/

/-- A row of the table as its mask and match on P. -/
structure MaskMatch where
  mask : PWord
  value : PWord
  deriving DecidableEq, Repr

/-- The word agrees with the row's match under its mask. -/
def MaskMatch.accepts (r : MaskMatch) (w : PWord) : Bool := decide (w &&& r.mask = r.value)

/-- Row ENC_RD: all 64 bits fixed (R45, R51). -/
def rowEncRd : MaskMatch := ⟨0xFFFFFFFFFFFFFFFF, 0x0000000000010079⟩

/-- Row ENC_WR: 56 bits fixed, byte 7 is `new_id` (R45, R51). -/
def rowEncWr : MaskMatch := ⟨0x00FFFFFFFFFFFFFF, 0x0000000000000079⟩

/-- Row DEC_RPLY.READOK (R51). -/
def rowReadOk : MaskMatch := ⟨0x0000000000FF00FF, 0x0000000000010079⟩

/-- Row DEC_RPLY.WRITEECHO (R51). -/
def rowWriteEcho : MaskMatch := ⟨0x0000000000FF00FF, 0x0000000000000079⟩

/-- The row of DEC_RPLY that a received frame falls in: length, then arbitration identifier, then the masked word, and
the fallback row last (R51). -/
def decodeReply (rxArb : Arb) (raw : List Byte) (expArb : Arb) : Instr :=
  match Payload.ofBytes? raw with
  | none => .decRplyInvalid rxArb raw expArb
  | some p =>
    if rxArb ≠ expArb then .decRplyInvalid rxArb raw expArb
    else if rowReadOk.accepts p.word then .decRplyReadOk rxArb raw expArb
    else if rowWriteEcho.accepts p.word then .decRplyWriteEcho rxArb raw expArb
    else .decRplyInvalid rxArb raw expArb

/-- The encoder operation whose request word this is (R45, R51), if any. -/
def decodeRequest (w : PWord) : Option Instr :=
  if rowEncRd.accepts w then some .encRd
  else if rowEncWr.accepts w then some (.encWr (byteAt w 7).toNat)
  else none

/-! ## Decoding an input -/

/-- Why an input names no row of the table. -/
inductive DecodeError where
  /-- `rx_event` = 3, 'not used' (R80): to be refused (U12). -/
  | unusedRxEvent
  /-- A word that neither encoder operation emits (R45). -/
  | noSuchRequest
  deriving DecidableEq, Repr

/-- What an input decodes to. -/
inductive Decoded where
  /-- Nothing is asked: `reset`, `cmd` and `rx_event` are all 0 (R80), or what happens does not reach the block (R100). -/
  | quiet
  | instr (i : Instr)
  | rejected (e : DecodeError)
  deriving DecidableEq, Repr

/-- The states in which a reply is awaited (R41). -/
def SeqState.awaits : SeqState → Bool
  | .awaitReadReply => true
  | .awaitWriteReply => true
  | .idle => false
  | .haveCurrentId => false
  | .done => false
  | .aborted => false

/-- The row of event RX. One port code and one operation stand for RX.READ and RX.WRITE, 'the state tells them apart' (the
table); outside the two AWAIT states RX is refused under the read row's name (DEDUCED, log entry 10). -/
def rxRow (st : SeqState) (rxArb : Arb) (raw : List Byte) : Instr :=
  if st = .awaitWriteReply then .rxWrite rxArb raw else .rxRead rxArb raw

/-- The row of event TIMEOUT, told apart in the same way. -/
def timeoutRow (st : SeqState) : Instr :=
  if st = .awaitWriteReply then .timeoutWrite else .timeoutRead

/-- The row of an operation in the notation of R56. -/
def decodeOperation (st : SeqState) : Operation → Instr
  | .encRd => .encRd
  | .encWr newId => .encWr newId
  | .decRply rxArb raw expArb => decodeReply rxArb raw expArb
  | .start tx => .start tx
  | .proceedWrite newId tx => .proceedWrite newId tx
  | .declineWrite => .declineWrite
  | .rx rxArb raw => rxRow st rxArb raw
  | .timeout => timeoutRow st
  | .reset => .reset

/-- Which input of the sequencer's ports a transition acts on. -/
inductive SeqPick where
  | reset
  | cmd
  | event
  | quiet
  deriving DecidableEq, Repr

/-- At most one of `cmd` and `rx_event` is acted on, the one the state can enable (R80). Reset asserted goes before both
(DESIGN CHOICE, log entry 7). -/
def pickSeq (st : SeqState) (p : SeqPorts) : SeqPick :=
  if p.reset = 1 then .reset
  else if st.awaits then
    if p.rxEvent ≠ 0 then .event else if p.cmd ≠ 0 then .cmd else .quiet
  else
    if p.cmd ≠ 0 then .cmd else if p.rxEvent ≠ 0 then .event else .quiet

/-- The command on `cmd`: 1 START, 2 PROCEED_WRITE, 3 DECLINE_WRITE (R80). -/
def decodeCmd (p : SeqPorts) : Decoded :=
  if p.cmd = 1 then .instr (.start (TxResult.ofBit p.txResult))
  else if p.cmd = 2 then .instr (.proceedWrite p.cmdNewId.toNat (TxResult.ofBit p.txResult))
  else if p.cmd = 3 then .instr .declineWrite
  else .quiet

/-- The event on `rx_event`: 1 RX, 2 TIMEOUT, 3 not used (R80). -/
def decodeEvent (st : SeqState) (p : SeqPorts) : Decoded :=
  if p.rxEvent = 1 then .instr (rxRow st p.rxArb p.rx.raw)
  else if p.rxEvent = 2 then .instr (timeoutRow st)
  else if p.rxEvent = 3 then .rejected .unusedRxEvent
  else .quiet

/-- The sequencer's ports (R80). -/
def decodeSeq (st : SeqState) (p : SeqPorts) : Decoded :=
  match pickSeq st p with
  | .reset => .instr .reset
  | .cmd => decodeCmd p
  | .event => decodeEvent st p
  | .quiet => .quiet

/-- What an input asks for when the sequencer is in state `st`. Total: every input is quiet, a row, or rejected by name. -/
def decode (st : SeqState) : Input → Decoded
  | .op o => .instr (decodeOperation st o)
  | .req w =>
    match decodeRequest w with
    | some i => .instr i
    | none => .rejected .noSuchRequest
  | .rply rxArb rx expArb => .instr (decodeReply rxArb rx.raw expArb)
  | .seq p => decodeSeq st p
  | .ownFrame arb p => .instr (rxRow st arb p.bytes)
  | .otherUser _ => .quiet

/-! ## Encoding -/

/-- The ports or the word that ask for a row: request words from R45, replies from R46 and R67, commands and events from
the port codes of R80. -/
def encode : Instr → Input
  | .encRd => .req 0x0000000000010079
  | .encWr newId => .req (placed (BitVec.ofInt 8 newId) 7 ||| 0x0000000000000079)
  | .decRplyReadOk rxArb raw expArb => .rply rxArb (RxFrame.ofRaw raw) expArb
  | .decRplyWriteEcho rxArb raw expArb => .rply rxArb (RxFrame.ofRaw raw) expArb
  | .decRplyInvalid rxArb raw expArb => .rply rxArb (RxFrame.ofRaw raw) expArb
  | .start tx => .seq { SeqPorts.quiet with cmd := 1, txResult := tx.bit }
  | .proceedWrite newId tx =>
    .seq { SeqPorts.quiet with cmd := 2, cmdNewId := BitVec.ofInt 8 newId, txResult := tx.bit }
  | .declineWrite => .seq { SeqPorts.quiet with cmd := 3 }
  | .rxRead rxArb raw => .seq { SeqPorts.quiet with rxEvent := 1, rxArb := rxArb, rx := RxFrame.ofRaw raw }
  | .rxWrite rxArb raw => .seq { SeqPorts.quiet with rxEvent := 1, rxArb := rxArb, rx := RxFrame.ofRaw raw }
  | .timeoutRead => .seq { SeqPorts.quiet with rxEvent := 2 }
  | .timeoutWrite => .seq { SeqPorts.quiet with rxEvent := 2 }
  | .reset => .seq { SeqPorts.quiet with reset := 1 }

/-- In which states decoding names this row: the two rows of one event are told apart by the state alone (the table), every
other row in every state. -/
def Instr.toldIn (st : SeqState) : Instr → Bool
  | .rxRead _ _ => decide (st ≠ .awaitWriteReply)
  | .rxWrite _ _ => decide (st = .awaitWriteReply)
  | .timeoutRead => decide (st ≠ .awaitWriteReply)
  | .timeoutWrite => decide (st = .awaitWriteReply)
  | .encRd => true
  | .encWr _ => true
  | .decRplyReadOk _ _ _ => true
  | .decRplyWriteEcho _ _ _ => true
  | .decRplyInvalid _ _ _ => true
  | .start _ => true
  | .proceedWrite _ _ => true
  | .declineWrite => true
  | .reset => true

/-! ## Bare words of the table -/

/-- The input a bare word of the table stands for. The table numbers payload words and port codes without naming the port,
and several rows share one word; the first row of the table that accepts the word names the port (DESIGN CHOICE, log entry
2): a request word goes to the encoder, any other 64-bit word is a received payload of eight bytes at the expected
identifier, and a short word is a `cmd` code with operands of zero. -/
def tableInput (nbits w : Nat) : Option Input :=
  if nbits = 64 then
    if w < 2 ^ 64 then
      match decodeRequest (BitVec.ofNat 64 w) with
      | some _ => some (.req (BitVec.ofNat 64 w))
      | none => some (.rply Config.settingArbIdDefault ⟨8, BitVec.ofNat 64 w, 0, []⟩ Config.settingArbIdDefault)
    else none
  else if nbits ≤ 8 ∧ 1 ≤ w ∧ w ≤ 3 then some (.seq { SeqPorts.quiet with cmd := BitVec.ofNat 2 w })
  else none

/-- The row the decoder reads from a bare word of the table, in the state after reset. -/
def decodeTableWord (nbits w : Nat) : Option Instr :=
  match tableInput nbits w with
  | none => none
  | some x =>
    match decode .idle x with
    | .instr i => some i
    | .quiet => none
    | .rejected _ => none

end Sys2Proof
end

