-- ==== Sys2Proof/Machine/State.lean ====
section
/-! DEFINITION. The machine's state as plain data (10_state.md), its reasons to stop, and the state after reset (R26). -/

namespace Sys2Proof.Machine

/-- Register ERR (R17). -/
inductive Err where
  | noError
  | invalidArgument
  | transportError
  | noReply
  | invalidReply
  | writeNotConfirmed
  deriving DecidableEq, Repr

/-- Register REASON (R18). -/
inductive Reason where
  | noReason
  | badLength
  | badArbitrationId
  | badCommandCode
  | badDirection
  | unexpectedKind
  deriving DecidableEq, Repr

/-- The four reasons an `Invalid` outcome of DEC_RPLY can carry (R66). -/
inductive FrameFault where
  | badLength
  | badArbitrationId
  | badCommandCode
  | badDirection
  deriving DecidableEq, Repr

/-- The result type of DEC_RPLY (R66). -/
inductive ReplyOutcome where
  | invalid (reason : FrameFault)
  | readOk (currentId : Byte) (replyAddress : Half)
  | writeEcho (echoedId : Byte)
  deriving DecidableEq, Repr

/-- The result of an operation of unit FC: a payload, the error InvalidArgument with the refused operand, or an outcome
(R58, R59, R60). -/
inductive FcResult where
  | payload (p : Payload)
  | invalidArgument (newId : Int)
  | outcome (o : ReplyOutcome)
  deriving DecidableEq, Repr

/-- Why a reply is invalid to the sequencer: a test of DEC_RPLY failed, or the kind is not the awaited one (R88). -/
inductive ReplyFault where
  | frame (f : FrameFault)
  | unexpectedKind
  deriving DecidableEq, Repr

/-- The five errors of R82, with what `raise E(info)` records. -/
inductive SeqError where
  | invalidArgument
  | transportError
  | noReply
  | invalidReply (info : ReplyFault)
  | writeNotConfirmed
  deriving DecidableEq, Repr

/-- One entry of the bus record, the model's own (DESIGN CHOICE, log entry 3). -/
inductive BusEvent where
  /-- `BusSend`: the frame handed to the transport and the transport's answer (R37). With `err` nothing is said of whether
  the frame reached the bus (R69). -/
  | sent (arb : Arb) (payload : Payload) (tx : TxResult)
  /-- `BusRecv` answered a frame, which it consumes (R35, R38). -/
  | received (arb : Arb) (raw : List Byte)
  /-- `BusRecv` answered none (R38). -/
  | noReply
  /-- RESET was raised: a new run's record begins here (R96). No bus access. -/
  | resetMark
  deriving DecidableEq, Repr

/-- The state. The first ten fields are the registers of 10_state.md; `respTimeout` is the parameter of R9; the last three
are the model's own. -/
structure State where
  /-- STATE (R16). -/
  state : SeqState
  /-- ERR (R17). -/
  err : Err
  /-- REASON (R18). -/
  reason : Reason
  /-- CUR_VALID (R19). -/
  curValid : Bool
  /-- CUR_ID (R19); none is the spec's 'holds no value' (R26, U11; log entry 5). -/
  curId : Option Byte
  /-- REPLY_ADDR (R20); none as for CUR_ID. -/
  replyAddr : Option Half
  /-- WR_ISSUED (R21). -/
  wrIssued : Bool
  /-- REQ_ID (R21); none as for CUR_ID. -/
  reqId : Option Byte
  /-- CFG_ARB_ID, read-only (R22). -/
  cfgArbId : Arb
  /-- CFG_ID_MASK, read-only (R23). -/
  cfgIdMask : Byte
  /-- Parameter RESP_TIMEOUT (R9), the argument of every `BusRecv`. -/
  respTimeout : Nat
  /-- The model's own: the output of unit FC at the operation last applied to it (log entry 4). -/
  fcOut : Option FcResult
  /-- The model's own: the bus record, newest entry first (log entry 3). -/
  trace : List BusEvent
  /-- The model's own: what the outside world has still to give, first to come first (log entry 1). -/
  inputs : List Input
  deriving DecidableEq, Repr

/-- Why the machine stops with a fault: it never does, so there is no constructor. Every error of R82 is a next state (R90), and a read of a register
that holds no value is impossible (U11; log entries 5 and 18). -/
inductive Fault where
  deriving DecidableEq, Repr

/-- Why the machine takes no step. -/
inductive Refusal where
  /-- Raised by exec's arm of an instruction that has no meaning in the model. No arm raises it now. Safe. -/
  | notModelled (mnemonic : String)
  /-- Raised by every sequencer row but RESET when the present state does not enable it (R77: 'A model should give a
  refused input no step'). Safe: errs toward unprovable (D15). -/
  | notEnabled (mnemonic : String) (present : SeqState)
  /-- Raised by step for `rx_event` = 3, 'not used' (R80; U12: 'refuse'). Safe. -/
  | unusedRxEvent
  /-- Raised by step for a request word that no encoder operation emits (R45): no operation is named. Safe. -/
  | noSuchRequest
  deriving DecidableEq, Repr

/-- The state after reset (R26), with the parameters at the spec's defaults (R7, R8, R9; log entry 6) and the model's own
fields empty (log entries 1, 3, 4). -/
def State.reset : State where
  state := .idle
  err := .noError
  reason := .noReason
  curValid := false
  curId := none
  replyAddr := none
  wrIssued := false
  reqId := none
  cfgArbId := Config.settingArbIdDefault
  cfgIdMask := Config.idMaskDefault
  respTimeout := Config.respTimeoutDefault
  fcOut := none
  trace := []
  inputs := []

end Sys2Proof.Machine
end

