-- ==== Sys2Proof/Machine/Flags.lean ====
section
/-! DEFINITION. The status registers: their numeric codes at the ports, and what an error writes into them. -/

namespace Sys2Proof

/-- The code of register STATE (R16). -/
def SeqState.code : SeqState → BitVec 3
  | .idle => 0
  | .awaitReadReply => 1
  | .haveCurrentId => 2
  | .awaitWriteReply => 3
  | .done => 4
  | .aborted => 5

namespace Machine

/-- The code of register ERR (R17, R82). -/
def Err.code : Err → BitVec 3
  | .noError => 0
  | .invalidArgument => 1
  | .transportError => 2
  | .noReply => 3
  | .invalidReply => 4
  | .writeNotConfirmed => 5

/-- The code of register REASON (R18, R88). -/
def Reason.code : Reason → BitVec 3
  | .noReason => 0
  | .badLength => 1
  | .badArbitrationId => 2
  | .badCommandCode => 3
  | .badDirection => 4
  | .unexpectedKind => 5

/-- The reason an `Invalid` outcome carries, as REASON holds it (R88). -/
def FrameFault.toReason : FrameFault → Reason
  | .badLength => .badLength
  | .badArbitrationId => .badArbitrationId
  | .badCommandCode => .badCommandCode
  | .badDirection => .badDirection

/-- What InvalidReply records in REASON (R88). -/
def ReplyFault.toReason : ReplyFault → Reason
  | .frame f => f.toReason
  | .unexpectedKind => .unexpectedKind

/-- The value an error puts into ERR (R82, R90). -/
def SeqError.toErr : SeqError → Err
  | .invalidArgument => .invalidArgument
  | .transportError => .transportError
  | .noReply => .noReply
  | .invalidReply _ => .invalidReply
  | .writeNotConfirmed => .writeNotConfirmed

/-- REASON after an error: the info of InvalidReply, else unchanged (R90). -/
def SeqError.reasonAfter (before : Reason) : SeqError → Reason
  | .invalidReply info => info.toReason
  | .invalidArgument => before
  | .transportError => before
  | .noReply => before
  | .writeNotConfirmed => before

/-- The kind code of an outcome (R66). -/
def ReplyOutcome.kind : ReplyOutcome → BitVec 2
  | .invalid _ => 0
  | .readOk _ _ => 1
  | .writeEcho _ => 2

/-- The reason code of an outcome: 0 unless it is `Invalid` (R67). -/
def ReplyOutcome.reasonCode : ReplyOutcome → BitVec 3
  | .invalid f => f.toReason.code
  | .readOk _ _ => 0
  | .writeEcho _ => 0

/-- The identifier of a read reply; no value for another kind (R67). -/
def ReplyOutcome.currentId? : ReplyOutcome → Option Byte
  | .readOk c _ => some c
  | .invalid _ => none
  | .writeEcho _ => none

/-- The reply address of a read reply; no value for another kind (R67). -/
def ReplyOutcome.replyAddress? : ReplyOutcome → Option Half
  | .readOk _ a => some a
  | .invalid _ => none
  | .writeEcho _ => none

/-- The echoed identifier of a write echo; no value for another kind (R67). -/
def ReplyOutcome.echoedId? : ReplyOutcome → Option Byte
  | .writeEcho e => some e
  | .invalid _ => none
  | .readOk _ _ => none

/-- A flag at its one-bit port. -/
def flagBit (b : Bool) : BitVec 1 := if b then 1 else 0

end Machine

end Sys2Proof
end

