-- ==== Sys2Proof/Machine/Operands.lean ====
section
/-! DEFINITION. Field assembly (30_encoding.md R47 to R50) and the three functions of unit FC (40_codec.md R58 to R63). -/

namespace Sys2Proof.Machine

/-- `current_id = byte[6] & ID_MASK` (R48). -/
def currentId (idMask b6 : Byte) : Byte := b6 &&& idMask

/-- `reply_address = (zext_16(byte[7]) << 8) | zext_16(byte[6])` (R49). -/
def replyAddress (b6 b7 : Byte) : Half := (b7.zeroExtend 16 <<< 8) ||| b6.zeroExtend 16

/-- `byte[7] = new_id` as an unsigned 8-bit value (R47). -/
def newIdByte (newId : Int) : Byte := BitVec.ofInt 8 newId

/-- `ID_MIN <= new_id and new_id <= ID_MAX`, a test on the integer (R59, R65). -/
def newIdInRange (newId : Int) : Bool := decide (Config.idMin ≤ newId) && decide (newId ≤ Config.idMax)

/-- The payload of the read request (R45, R58). -/
def readRequest : Payload := ⟨Config.cmdCode, 0, Config.readFlag, 0, 0, 0, 0, 0⟩

/-- The payload of the write request for an identifier byte (R45, R59). -/
def writeRequest (idByte : Byte) : Payload := ⟨Config.cmdCode, 0, Config.writeFlag, 0, 0, 0, 0, idByte⟩

/-- ENC_WR: the write request, or none where it raises InvalidArgument (R59). -/
def encodeWrite (newId : Int) : Option Payload :=
  if newIdInRange newId then some (writeRequest (newIdByte newId)) else none

/-- The stages of DEC_RPLY after the length check: (b), (c), then the branch on the direction flag (R60 to R63). -/
def decodePayload (idMask : Byte) (rxArb : Arb) (p : Payload) (expArb : Arb) : ReplyOutcome :=
  if rxArb ≠ expArb then .invalid .badArbitrationId
  else if p.b0 ≠ Config.cmdCode then .invalid .badCommandCode
  else if p.b2 = Config.readFlag then .readOk (currentId idMask p.b6) (replyAddress p.b6 p.b7)
  else if p.b2 = Config.writeFlag then .writeEcho p.b7
  else .invalid .badDirection

/-- DEC_RPLY (R60 to R63): the length check (a) first, so that no byte of a frame of another length is read. -/
def decRply (idMask : Byte) (rxArb : Arb) (raw : List Byte) (expArb : Arb) : ReplyOutcome :=
  match Payload.ofBytes? raw with
  | none => .invalid .badLength
  | some p => decodePayload idMask rxArb p expArb

end Sys2Proof.Machine
end

