-- ==== Sys2Proof/Machine/Ops.lean ====
section
/-! DEFINITION. The named operations every meaning is built from: register reads and writes, the transport primitives (R37,
R38), the error entry (R90), the enabling check (R77), reset of the registers (R26), and taking the next input. -/

namespace Sys2Proof.Machine

/-! ## Registers -/

/-- `STATE <- st` (R13, R16). -/
def State.goto (st : SeqState) (s : State) : State := { s with state := st }

/-- `CUR_ID <- c; REPLY_ADDR <- a; CUR_VALID <- 1` (R71). -/
def State.recordRead (c : Byte) (a : Half) (s : State) : State :=
  { s with curId := some c, replyAddr := some a, curValid := true }

/-- `REQ_ID <- r; WR_ISSUED <- 1` (R73). -/
def State.recordWrite (r : Byte) (s : State) : State := { s with reqId := some r, wrIssued := true }

/-- CUR_ID as a reader may have it: no value while CUR_VALID is 0 (R19). -/
def State.readCurId (s : State) : Option Byte := if s.curValid then s.curId else none

/-- REPLY_ADDR as a reader may have it: no value while CUR_VALID is 0 (R20). -/
def State.readReplyAddr (s : State) : Option Half := if s.curValid then s.replyAddr else none

/-- REQ_ID as a reader may have it: no value while WR_ISSUED is 0 (R21). -/
def State.readReqId (s : State) : Option Byte := if s.wrIssued then s.reqId else none

/-- The output of unit FC at this operation (R67; log entry 4). -/
def State.setFcOut (r : FcResult) (s : State) : State := { s with fcOut := some r }

/-! ## The transport (R37, R38) -/

/-- `BusSend(CFG_ARB_ID, payload)` with the transport's answer. -/
def State.busSend (p : Payload) (tx : TxResult) (s : State) : State :=
  { s with trace := .sent s.cfgArbId p tx :: s.trace }

/-- `BusRecv()` answered this frame. -/
def State.busRecv (rxArb : Arb) (raw : List Byte) (s : State) : State :=
  { s with trace := .received rxArb raw :: s.trace }

/-- `BusRecv()` answered none. -/
def State.busTimeout (s : State) : State := { s with trace := .noReply :: s.trace }

/-! ## Errors (R90) -/

/-- The error entry: ERR, REASON and STATE, and no other register. There is no return from it (R91). -/
def State.raise (e : SeqError) (s : State) : State :=
  { s with err := e.toErr, reason := e.reasonAfter s.reason, state := .aborted }

/-! ## Reset (R26, R96) -/

/-- Every register at its value after reset; the parameters, unit FC and what stands outside the block untouched. -/
def State.clearRegs (s : State) : State :=
  { s with
    state := .idle, err := .noError, reason := .noReason, curValid := false, curId := none, replyAddr := none,
    wrIssued := false, reqId := none }

/-- The record of the bus notes the reset; no frame is sent and nothing on the bus is cancelled (R96). -/
def State.markReset (s : State) : State := { s with trace := .resetMark :: s.trace }

/-! ## Enabling (R77) -/

/-- The transition `act` in the state that enables it; refused, with no step, in every other (R77). -/
def onlyIn (wanted : SeqState) (mnemonic : String) (s : State) (act : Host.Outcome State Fault Refusal) :
    Host.Outcome State Fault Refusal :=
  if s.state = wanted then act else .refused (.notEnabled mnemonic s.state)

/-! ## Taking the next input -/

/-- The next input taken off, and what it asks for in the present state; none where the outside world gives nothing. -/
def State.takeInput (s : State) : Option (Decoded × State) :=
  match s.inputs with
  | [] => none
  | x :: rest => some (decode s.state x, { s with inputs := rest })

/-- The refusal of an input that names no row. -/
def refusalOf : DecodeError → Refusal
  | .unusedRxEvent => .unusedRxEvent
  | .noSuchRequest => .noSuchRequest

/-- An input put before all others. -/
def State.giveFirst (x : Input) (s : State) : State := { s with inputs := x :: s.inputs }

end Sys2Proof.Machine
end

