-- ==== Sys2Proof/Machine/Codec.lean ====
section
/-! DEFINITION. The meanings of unit FC's rows (40_codec.md). Each writes no register of the block; its result is shown in
`fcOut` (log entry 4). -/

namespace Sys2Proof.Machine

/-- ENC_RD (R58). -/
def execEncRd (s : State) : Host.Outcome State Fault Refusal := .next (s.setFcOut (.payload readRequest))

/-- ENC_WR (R59): the write request, or the error InvalidArgument as the result. -/
def execEncWr (newId : Int) (s : State) : Host.Outcome State Fault Refusal :=
  match encodeWrite newId with
  | some p => .next (s.setFcOut (.payload p))
  | none => .next (s.setFcOut (.invalidArgument newId))

/-- DEC_RPLY whole, on any operands: the three rows below differ only in the operands that fall in them (R51, R60; log
entry 11). -/
def showReply (rxArb : Arb) (raw : List Byte) (expArb : Arb) (s : State) : State :=
  s.setFcOut (.outcome (decRply s.cfgIdMask rxArb raw expArb))

/-- DEC_RPLY.READOK (R61). -/
def execDecRplyReadOk (rxArb : Arb) (raw : List Byte) (expArb : Arb) (s : State) :
    Host.Outcome State Fault Refusal :=
  .next (showReply rxArb raw expArb s)

/-- DEC_RPLY.WRITEECHO (R62). -/
def execDecRplyWriteEcho (rxArb : Arb) (raw : List Byte) (expArb : Arb) (s : State) :
    Host.Outcome State Fault Refusal :=
  .next (showReply rxArb raw expArb s)

/-- DEC_RPLY.INVALID (R60, R63). -/
def execDecRplyInvalid (rxArb : Arb) (raw : List Byte) (expArb : Arb) (s : State) :
    Host.Outcome State Fault Refusal :=
  .next (showReply rxArb raw expArb s)

end Sys2Proof.Machine
end

