-- ==== Sys2Proof/Machine/Sequencer.lean ====
section
/-! DEFINITION. The meanings of unit SEQ's rows (41_sequencer.md), and RESET (70_reset_and_hazards.md R96). -/

namespace Sys2Proof.Machine

/-- START (R69). -/
def execStart (tx : TxResult) (s : State) : Host.Outcome State Fault Refusal :=
  onlyIn .idle "START" s <|
    match tx with
    | .ok => .next ((s.busSend readRequest .ok).goto .awaitReadReply)
    | .err => .next ((s.busSend readRequest .err).raise .transportError)

/-- PROCEED_WRITE (R73): the range test comes before the send (R89, R103). -/
def execProceedWrite (newId : Int) (tx : TxResult) (s : State) : Host.Outcome State Fault Refusal :=
  onlyIn .haveCurrentId "PROCEED_WRITE" s <|
    match encodeWrite newId with
    | none => .next (s.raise .invalidArgument)
    | some p =>
      match tx with
      | .ok => .next (((s.busSend p .ok).recordWrite (newIdByte newId)).goto .awaitWriteReply)
      | .err => .next ((s.busSend p .err).raise .transportError)

/-- DECLINE_WRITE (R72). -/
def execDeclineWrite (s : State) : Host.Outcome State Fault Refusal :=
  onlyIn .haveCurrentId "DECLINE_WRITE" s <| .next (s.goto .done)

/-- RX.READ (R71). -/
def execRxRead (rxArb : Arb) (raw : List Byte) (s : State) : Host.Outcome State Fault Refusal :=
  onlyIn .awaitReadReply "RX.READ" s <|
    match decRply s.cfgIdMask rxArb raw s.cfgArbId with
    | .readOk c a => .next (((s.busRecv rxArb raw).recordRead c a).goto .haveCurrentId)
    | .invalid f => .next ((s.busRecv rxArb raw).raise (.invalidReply (.frame f)))
    | .writeEcho _ => .next ((s.busRecv rxArb raw).raise (.invalidReply .unexpectedKind))

/-- RX.WRITE (R75), the echo check. An echo equals REQ_ID only where REQ_ID holds a value, so where it holds none nothing is
read and the write is not confirmed (U11: 'make the read impossible (option type)'; DESIGN CHOICE, log entry 18). -/
def execRxWrite (rxArb : Arb) (raw : List Byte) (s : State) : Host.Outcome State Fault Refusal :=
  onlyIn .awaitWriteReply "RX.WRITE" s <|
    match decRply s.cfgIdMask rxArb raw s.cfgArbId with
    | .writeEcho e =>
      if s.readReqId = some e then .next ((s.busRecv rxArb raw).goto .done)
      else .next ((s.busRecv rxArb raw).raise .writeNotConfirmed)
    | .invalid f => .next ((s.busRecv rxArb raw).raise (.invalidReply (.frame f)))
    | .readOk _ _ => .next ((s.busRecv rxArb raw).raise (.invalidReply .unexpectedKind))

/-- TIMEOUT.READ (R70). -/
def execTimeoutRead (s : State) : Host.Outcome State Fault Refusal :=
  onlyIn .awaitReadReply "TIMEOUT.READ" s <| .next (s.busTimeout.raise .noReply)

/-- TIMEOUT.WRITE (R74). -/
def execTimeoutWrite (s : State) : Host.Outcome State Fault Refusal :=
  onlyIn .awaitWriteReply "TIMEOUT.WRITE" s <| .next (s.busTimeout.raise .noReply)

/-- RESET (R96), enabled in every state. -/
def execReset (s : State) : Host.Outcome State Fault Refusal := .next s.clearRegs.markReset

end Sys2Proof.Machine
end

