-- ==== Sys2Proof/Machine/Dispatch.lean ====
section
/-! DEFINITION. One arm per row of the operation table, each one direct call of that row's meaning. -/

namespace Sys2Proof.Machine

def exec (i : Instr) (s : State) : Host.Outcome State Fault Refusal :=
  match i with
  | .encRd => Sys2Proof.Machine.execEncRd s
  | .encWr newId => Sys2Proof.Machine.execEncWr newId s
  | .decRplyReadOk rxArb raw expArb => Sys2Proof.Machine.execDecRplyReadOk rxArb raw expArb s
  | .decRplyWriteEcho rxArb raw expArb => Sys2Proof.Machine.execDecRplyWriteEcho rxArb raw expArb s
  | .decRplyInvalid rxArb raw expArb => Sys2Proof.Machine.execDecRplyInvalid rxArb raw expArb s
  | .start tx => Sys2Proof.Machine.execStart tx s
  | .proceedWrite newId tx => Sys2Proof.Machine.execProceedWrite newId tx s
  | .declineWrite => Sys2Proof.Machine.execDeclineWrite s
  | .rxRead rxArb raw => Sys2Proof.Machine.execRxRead rxArb raw s
  | .rxWrite rxArb raw => Sys2Proof.Machine.execRxWrite rxArb raw s
  | .timeoutRead => Sys2Proof.Machine.execTimeoutRead s
  | .timeoutWrite => Sys2Proof.Machine.execTimeoutWrite s
  | .reset => Sys2Proof.Machine.execReset s

end Sys2Proof.Machine
end

