-- ==== Sys2Proof/Machine/Step.lean ====
section
/-! DEFINITION. One step: the next input is taken and its row executed. Between inputs nothing happens (R106). -/

namespace Sys2Proof.Machine

/-- One step. With no input, or with quiet ports, no transition happens and the machine waits (log entry 1); an input that
names no row, or a row not enabled, gets no step (R77, U12, U13). -/
def step (s : State) : Host.Outcome State Fault Refusal :=
  match s.takeInput with
  | none => .next s
  | some (.quiet, s1) => .next s1
  | some (.instr i, s1) => exec i s1
  | some (.rejected e, _) => .refused (refusalOf e)

/-- The bare word of the table placed where step takes its next input (log entries 1 and 2). -/
def State.withFetchWord (s : State) (nbits w : Nat) : State :=
  match tableInput nbits w with
  | some x => s.giveFirst x
  | none => s

end Sys2Proof.Machine
end

