-- ==== Sys2Proof/Machine/Ports.lean ====
section
/-! DEFINITION. The port-level views: unit FC as combinational hardware (R67), unit SEQ's outputs (R80), and the block's
side of a receive (R38). Written from the port tables alone and not from the decoder, so that the two can be compared. An
output that is 'meaningful only when' a condition holds is an Option (R67). -/

namespace Sys2Proof.Machine

/-! ## Unit FC (R67) -/

/-- The input ports of unit FC. -/
structure FcPortsIn where
  newId : BitVec 8
  rxArb : Arb
  rx : RxFrame
  expArb : Arb
  deriving DecidableEq, Repr

/-- The output ports of unit FC. -/
structure FcPortsOut where
  encRdPayload : PWord
  encWrPayload : Option PWord
  encWrFault : BitVec 1
  outKind : BitVec 2
  outReason : BitVec 3
  outCurrentId : Option Byte
  outReplyAddress : Option Half
  outEchoedId : Option Byte
  deriving DecidableEq, Repr

/-- The outcome at the decoder's ports: the tests on `rx_len` and on the bytes of `rx_data` (R67). -/
def fcOutcome (idMask : Byte) (p : FcPortsIn) : ReplyOutcome :=
  if p.rx.rxLen ≠ 8 then .invalid .badLength
  else if p.rxArb ≠ p.expArb then .invalid .badArbitrationId
  else if byteAt p.rx.rxData 0 ≠ 0x79 then .invalid .badCommandCode
  else if byteAt p.rx.rxData 2 = 0x01 then
    .readOk (byteAt p.rx.rxData 6 &&& idMask) (p.rx.rxData.extractLsb' 48 16)
  else if byteAt p.rx.rxData 2 = 0x00 then .writeEcho (byteAt p.rx.rxData 7)
  else .invalid .badDirection

/-- Unit FC: every output a function of the inputs present at the same time (R67). -/
def fcPorts (idMask : Byte) (p : FcPortsIn) : FcPortsOut where
  encRdPayload := 0x0000000000010079
  encWrPayload :=
    if 1 ≤ p.newId ∧ p.newId ≤ 32 then some ((p.newId.zeroExtend 64 <<< 56) ||| 0x0000000000000079) else none
  encWrFault := if 1 ≤ p.newId ∧ p.newId ≤ 32 then 0 else 1
  outKind := (fcOutcome idMask p).kind
  outReason := (fcOutcome idMask p).reasonCode
  outCurrentId := (fcOutcome idMask p).currentId?
  outReplyAddress := (fcOutcome idMask p).replyAddress?
  outEchoedId := (fcOutcome idMask p).echoedId?

/-! ## Unit SEQ (R80) -/

/-- The output ports of unit SEQ. -/
structure SeqPortsOut where
  cmdAccept : BitVec 1
  txValid : BitVec 1
  txArb : Arb
  txData : Option PWord
  state : BitVec 3
  err : BitVec 3
  reason : BitVec 3
  curValid : BitVec 1
  curId : Option Byte
  replyAddr : Option Half
  wrIssued : BitVec 1
  reqId : Option Byte
  deriving DecidableEq, Repr

/-- `cmd` is enabled in this state: START in IDLE, PROCEED_WRITE and DECLINE_WRITE in HAVE_CURRENT_ID (R77, R80). -/
def cmdEnabled (st : SeqState) (cmd : BitVec 2) : Bool :=
  match st with
  | .idle => decide (cmd = 1)
  | .haveCurrentId => decide (cmd = 2) || decide (cmd = 3)
  | .awaitReadReply => false
  | .awaitWriteReply => false
  | .done => false
  | .aborted => false

/-- `cmd` is acted on: enabled, and reset not asserted (R80; log entry 7). -/
def cmdAccepted (s : State) (p : SeqPorts) : Bool := decide (p.reset = 0) && cmdEnabled s.state p.cmd

/-- The request handed to the transport in this transition, if any (R69, R73, R103). -/
def txPayload (s : State) (p : SeqPorts) : Option Payload :=
  if cmdAccepted s p then
    if p.cmd = 1 then some readRequest
    else if p.cmd = 2 ∧ 1 ≤ p.cmdNewId ∧ p.cmdNewId ≤ 32 then some (writeRequest p.cmdNewId)
    else none
  else none

/-- Unit SEQ's outputs: the registers, and what the inputs at the ports make of the present state (R80). -/
def seqPorts (s : State) (p : SeqPorts) : SeqPortsOut where
  cmdAccept := flagBit (cmdAccepted s p)
  txValid := flagBit (txPayload s p).isSome
  txArb := s.cfgArbId
  txData := (txPayload s p).map Payload.word
  state := s.state.code
  err := s.err.code
  reason := s.reason.code
  curValid := flagBit s.curValid
  curId := s.readCurId
  replyAddr := s.readReplyAddr
  wrIssued := flagBit s.wrIssued
  reqId := s.readReqId

/-! ## The receive (R38, R41) -/

/-- The `BusRecv` the block waits on, as its timeout argument: one exactly while a reply is awaited (R25, R38, R41). -/
def State.pendingRecv (s : State) : Option Nat := if s.state.awaits then some s.respTimeout else none

end Sys2Proof.Machine
end

