-- ==== Sys2Proof/Safety.lean ====
section
/-! DEFINITION. The words claims are stated in: which state enables which row (the table), the end of a run (R81), the
terminal conditions (R76), the invariants of the registers (R16 to R21) and of the bus accesses of a run (R40, R78), and
the assumptions on the surroundings (R98). -/

namespace Sys2Proof.Machine

/-- `enabled_in` of the operation table: the rows of unit FC and RESET in every state, every other row in one. -/
def enabledIn (st : SeqState) : Instr → Bool
  | .encRd => true
  | .encWr _ => true
  | .decRplyReadOk _ _ _ => true
  | .decRplyWriteEcho _ _ _ => true
  | .decRplyInvalid _ _ _ => true
  | .start _ => decide (st = .idle)
  | .proceedWrite _ _ => decide (st = .haveCurrentId)
  | .declineWrite => decide (st = .haveCurrentId)
  | .rxRead _ _ => decide (st = .awaitReadReply)
  | .rxWrite _ _ => decide (st = .awaitWriteReply)
  | .timeoutRead => decide (st = .awaitReadReply)
  | .timeoutWrite => decide (st = .awaitWriteReply)
  | .reset => true

/-- The row's mnemonic in the operation table. -/
def mnemonic : Instr → String
  | .encRd => "ENC_RD"
  | .encWr _ => "ENC_WR"
  | .decRplyReadOk _ _ _ => "DEC_RPLY.READOK"
  | .decRplyWriteEcho _ _ _ => "DEC_RPLY.WRITEECHO"
  | .decRplyInvalid _ _ _ => "DEC_RPLY.INVALID"
  | .start _ => "START"
  | .proceedWrite _ _ => "PROCEED_WRITE"
  | .declineWrite => "DECLINE_WRITE"
  | .rxRead _ _ => "RX.READ"
  | .rxWrite _ _ => "RX.WRITE"
  | .timeoutRead => "TIMEOUT.READ"
  | .timeoutWrite => "TIMEOUT.WRITE"
  | .reset => "RESET"

/-- The rows of unit FC. -/
def isCodecRow : Instr → Bool
  | .encRd => true
  | .encWr _ => true
  | .decRplyReadOk _ _ _ => true
  | .decRplyWriteEcho _ _ _ => true
  | .decRplyInvalid _ _ _ => true
  | .start _ => false
  | .proceedWrite _ _ => false
  | .declineWrite => false
  | .rxRead _ _ => false
  | .rxWrite _ _ => false
  | .timeoutRead => false
  | .timeoutWrite => false
  | .reset => false

/-! ## The end of a run (R76, R81) -/

/-- The run has ended: STATE is DONE or ABORTED (R81). -/
def State.ended (s : State) : Bool := decide (s.state = .done) || decide (s.state = .aborted)

/-! ## What is known of the remote identifier (R25, R99). It is no state of the block (R25), so this reads the bus record
(log entry 17). -/

/-- The frame is the answer that settles the request the record ends with: a ReadOk to the read request, or the echo of the
identifier the write request asked for (R25, R81, R99). -/
def settles (idMask : Byte) (expArb rxArb : Arb) (raw : List Byte) : List BusEvent → Bool
  | .sent _ p _ :: _ =>
    match decRply idMask rxArb raw expArb with
    | .readOk _ _ => decide (p = readRequest)
    | .writeEcho e => decide (p = writeRequest e)
    | .invalid _ => false
  | .received _ _ :: _ => false
  | .noReply :: _ => false
  | .resetMark :: _ => false
  | [] => false

/-- Some write request of the record, newest entry first, has been followed neither by its echo nor by a valid read reply.
A send answered `err` counts, since 'the source does not exclude that the frame left' (R99), and RESET settles nothing. -/
def writeUnsettled (idMask : Byte) (expArb : Arb) : List BusEvent → Bool
  | [] => false
  | .sent _ p _ :: older => decide (p ≠ readRequest) || writeUnsettled idMask expArb older
  | .received rxArb raw :: older => !settles idMask expArb rxArb raw older && writeUnsettled idMask expArb older
  | .noReply :: older => writeUnsettled idMask expArb older
  | .resetMark :: older => writeUnsettled idMask expArb older

/-- The remote identifier is unknown since a write request: after a failed or not yet answered write, after TransportError
on the write send, and after a reset in AWAIT_WRITE_REPLY, until a run reads it or a write is confirmed (R25, R79, R99). -/
def State.remoteUnknown (s : State) : Bool := writeUnsettled s.cfgIdMask s.cfgArbId s.trace

/-- The terminal conditions of R76, one per line of its table. -/
inductive TerminalCondition where
  | readOnly
  | writeConfirmed
  | transportFailure
  | noReadReply
  | invalidReadReply (reason : Reason)
  | identifierOutOfRange
  | noEcho
  | invalidEcho (reason : Reason)
  | echoMismatch
  deriving DecidableEq, Repr

/-- The terminal condition the outputs STATE, ERR, REASON and WR_ISSUED show (R76, R95); none for a combination that R76's
table does not list. -/
def terminalCondition (s : State) : Option TerminalCondition :=
  match s.state, s.err, s.wrIssued with
  | .done, .noError, false => some .readOnly
  | .done, .noError, true => some .writeConfirmed
  | .aborted, .transportError, false => some .transportFailure
  | .aborted, .noReply, false => some .noReadReply
  | .aborted, .invalidReply, false => some (.invalidReadReply s.reason)
  | .aborted, .invalidArgument, false => some .identifierOutOfRange
  | .aborted, .noReply, true => some .noEcho
  | .aborted, .invalidReply, true => some (.invalidEcho s.reason)
  | .aborted, .writeNotConfirmed, true => some .echoMismatch
  | _, _, _ => none

/-! ## Invariants of the registers -/

/-- What the registers keep to in every state a run reaches: R17 and R18's two equivalences, R19 to R21's valid flags, and
R76's table. -/
structure RegsInv (s : State) : Prop where
  /-- 'ERR != 0 exactly when STATE == ABORTED' (R17). -/
  errAborted : s.err ≠ .noError ↔ s.state = .aborted
  /-- 'REASON != 0 exactly when ERR == InvalidReply' (R18). -/
  reasonInvalid : s.reason ≠ .noReason ↔ s.err = .invalidReply
  /-- CUR_ID holds a value exactly while CUR_VALID is 1 (R19). -/
  curIdHeld : s.curId.isSome = s.curValid
  /-- REPLY_ADDR is valid under the same flag (R20). -/
  replyAddrHeld : s.replyAddr.isSome = s.curValid
  /-- REQ_ID holds a value exactly while WR_ISSUED is 1 (R21). -/
  reqIdHeld : s.reqId.isSome = s.wrIssued
  /-- 'When valid, 1 <= REQ_ID <= 32' (R21). -/
  reqIdRange : ∀ r, s.reqId = some r → 1 ≤ r.toNat ∧ r.toNat ≤ 32
  /-- In which states CUR_VALID is 0 (R19). -/
  curBefore : s.state = .idle ∨ s.state = .awaitReadReply → s.curValid = false
  /-- In which states CUR_VALID is 1 (R19). -/
  curAfter : s.state = .haveCurrentId ∨ s.state = .awaitWriteReply ∨ s.state = .done → s.curValid = true
  /-- No write request is sent before the host decides (R21, R40). -/
  wrBefore : s.state = .idle ∨ s.state = .awaitReadReply ∨ s.state = .haveCurrentId → s.wrIssued = false
  /-- A write reply is awaited only after a write request (R21, R73). -/
  wrAfter : s.state = .awaitWriteReply → s.wrIssued = true
  /-- A write request is sent only after a valid read reply (R40). -/
  wrNeedsCur : s.wrIssued = true → s.curValid = true
  /-- InvalidArgument and TransportError end a run before a write request counts as issued (R76). -/
  errUnsent : s.err = .invalidArgument ∨ s.err = .transportError → s.wrIssued = false
  /-- InvalidArgument arises only after a valid read reply (R83). -/
  errAfterRead : s.err = .invalidArgument → s.curValid = true
  /-- WriteNotConfirmed presupposes an issued write (R76, R87). -/
  errSent : s.err = .writeNotConfirmed → s.wrIssued = true
  /-- The reply errors of the read phase leave CUR_VALID 0, those of the write phase have WR_ISSUED 1 (R70, R71, R76). -/
  errPhase : s.err = .noReply ∨ s.err = .invalidReply → s.curValid = s.wrIssued

/-! ## The bus accesses of a run -/

/-- A frame handed to the transport (R37). -/
def BusEvent.isSend : BusEvent → Bool
  | .sent _ _ _ => true
  | .received _ _ => false
  | .noReply => false
  | .resetMark => false

/-- The bus record of the present run, newest entry first: what came since the last RESET. -/
def runTrace (trace : List BusEvent) : List BusEvent := trace.takeWhile (fun e => decide (e ≠ .resetMark))

/-- The read request handed over at CFG_ARB_ID with this answer (R69). -/
def State.readSent (s : State) (tx : TxResult) : BusEvent := .sent s.cfgArbId readRequest tx

/-- The write request for this identifier byte handed over at CFG_ARB_ID with this answer (R73). -/
def State.writeSent (s : State) (idByte : Byte) (tx : TxResult) : BusEvent := .sent s.cfgArbId (writeRequest idByte) tx

/-- DEC_RPLY as the sequencer applies it (R22, R71, R75). -/
def State.decodes (s : State) (rxArb : Arb) (raw : List Byte) : ReplyOutcome :=
  decRply s.cfgIdMask rxArb raw s.cfgArbId

/-- The frame decodes as the read reply whose fields CUR_ID and REPLY_ADDR hold (R71). -/
def State.readReplyFrame (s : State) (rxArb : Arb) (raw : List Byte) : Prop :=
  ∃ c a, s.decodes rxArb raw = .readOk c a ∧ s.curId = some c ∧ s.replyAddr = some a

/-- The frame decodes as an echo of REQ_ID (R75). -/
def State.confirmingFrame (s : State) (rxArb : Arb) (raw : List Byte) : Prop :=
  ∃ r, s.decodes rxArb raw = .writeEcho r ∧ s.reqId = some r

/-- The transition table of R68, row by row; its rows 1 to 15 in order. Every field a row does not name stays. That row 13
holds where REQ_ID has no value is the model's choice (log entry 18). -/
inductive TableStep (s : State) : Instr → State → Prop where
  | row1 : s.state = .idle →
      TableStep s (.start .ok) { s with state := .awaitReadReply, trace := s.readSent .ok :: s.trace }
  | row2 : s.state = .idle →
      TableStep s (.start .err)
        { s with state := .aborted, err := .transportError, trace := s.readSent .err :: s.trace }
  | row3 : s.state = .awaitReadReply →
      TableStep s .timeoutRead { s with state := .aborted, err := .noReply, trace := .noReply :: s.trace }
  | row4 (arb : Arb) (raw : List Byte) (c : Byte) (a : Half) : s.state = .awaitReadReply →
      s.decodes arb raw = .readOk c a →
      TableStep s (.rxRead arb raw)
        { s with
          state := .haveCurrentId, curId := some c, replyAddr := some a, curValid := true,
          trace := .received arb raw :: s.trace }
  | row5 (arb : Arb) (raw : List Byte) (f : FrameFault) : s.state = .awaitReadReply →
      s.decodes arb raw = .invalid f →
      TableStep s (.rxRead arb raw)
        { s with
          state := .aborted, err := .invalidReply,
          reason :=
            (match f with
              | .badLength => .badLength
              | .badArbitrationId => .badArbitrationId
              | .badCommandCode => .badCommandCode
              | .badDirection => .badDirection),
          trace := .received arb raw :: s.trace }
  | row6 (arb : Arb) (raw : List Byte) (e : Byte) : s.state = .awaitReadReply → s.decodes arb raw = .writeEcho e →
      TableStep s (.rxRead arb raw)
        { s with
          state := .aborted, err := .invalidReply, reason := .unexpectedKind,
          trace := .received arb raw :: s.trace }
  | row7 : s.state = .haveCurrentId → TableStep s .declineWrite { s with state := .done }
  | row8 (newId : Int) (tx : TxResult) : s.state = .haveCurrentId → newId < 1 ∨ 32 < newId →
      TableStep s (.proceedWrite newId tx) { s with state := .aborted, err := .invalidArgument }
  | row9 (newId : Int) : s.state = .haveCurrentId → 1 ≤ newId → newId ≤ 32 →
      TableStep s (.proceedWrite newId .ok)
        { s with
          state := .awaitWriteReply, reqId := some (BitVec.ofInt 8 newId), wrIssued := true,
          trace := s.writeSent (BitVec.ofInt 8 newId) .ok :: s.trace }
  | row10 (newId : Int) : s.state = .haveCurrentId → 1 ≤ newId → newId ≤ 32 →
      TableStep s (.proceedWrite newId .err)
        { s with
          state := .aborted, err := .transportError, trace := s.writeSent (BitVec.ofInt 8 newId) .err :: s.trace }
  | row11 : s.state = .awaitWriteReply →
      TableStep s .timeoutWrite { s with state := .aborted, err := .noReply, trace := .noReply :: s.trace }
  | row12 (arb : Arb) (raw : List Byte) (e : Byte) : s.state = .awaitWriteReply →
      s.decodes arb raw = .writeEcho e → s.readReqId = some e →
      TableStep s (.rxWrite arb raw) { s with state := .done, trace := .received arb raw :: s.trace }
  | row13 (arb : Arb) (raw : List Byte) (e : Byte) : s.state = .awaitWriteReply →
      s.decodes arb raw = .writeEcho e → s.readReqId ≠ some e →
      TableStep s (.rxWrite arb raw)
        { s with state := .aborted, err := .writeNotConfirmed, trace := .received arb raw :: s.trace }
  | row14 (arb : Arb) (raw : List Byte) (f : FrameFault) : s.state = .awaitWriteReply →
      s.decodes arb raw = .invalid f →
      TableStep s (.rxWrite arb raw)
        { s with
          state := .aborted, err := .invalidReply,
          reason :=
            (match f with
              | .badLength => .badLength
              | .badArbitrationId => .badArbitrationId
              | .badCommandCode => .badCommandCode
              | .badDirection => .badDirection),
          trace := .received arb raw :: s.trace }
  | row15 (arb : Arb) (raw : List Byte) (c : Byte) (a : Half) : s.state = .awaitWriteReply →
      s.decodes arb raw = .readOk c a →
      TableStep s (.rxWrite arb raw)
        { s with
          state := .aborted, err := .invalidReply, reason := .unexpectedKind,
          trace := .received arb raw :: s.trace }

/-- The bus accesses of the present run so far, newest first, are a sequence R40 allows and that fits the registers: which
request was sent, which reply was received, and what was decoded from it. -/
inductive RunAccesses (s : State) : List BusEvent → Prop where
  | idle : s.state = .idle → RunAccesses s []
  | reading : s.state = .awaitReadReply → RunAccesses s [s.readSent .ok]
  | read (arb : Arb) (raw : List Byte) : s.state = .haveCurrentId → s.readReplyFrame arb raw →
      RunAccesses s [.received arb raw, s.readSent .ok]
  | writing (arb : Arb) (raw : List Byte) (r : Byte) : s.state = .awaitWriteReply → s.readReplyFrame arb raw →
      s.reqId = some r → RunAccesses s [s.writeSent r .ok, .received arb raw, s.readSent .ok]
  | declined (arb : Arb) (raw : List Byte) : s.state = .done → s.wrIssued = false → s.readReplyFrame arb raw →
      RunAccesses s [.received arb raw, s.readSent .ok]
  | confirmed (arb : Arb) (raw : List Byte) (r : Byte) (arb' : Arb) (raw' : List Byte) : s.state = .done →
      s.wrIssued = true → s.readReplyFrame arb raw → s.reqId = some r → s.confirmingFrame arb' raw' →
      RunAccesses s [.received arb' raw', s.writeSent r .ok, .received arb raw, s.readSent .ok]
  | readNotSent : s.state = .aborted → s.err = .transportError → s.curValid = false →
      RunAccesses s [s.readSent .err]
  | readUnanswered : s.state = .aborted → s.err = .noReply → s.curValid = false →
      RunAccesses s [.noReply, s.readSent .ok]
  | readRejected (arb : Arb) (raw : List Byte) : s.state = .aborted → s.err = .invalidReply → s.curValid = false →
      (∀ c a, s.decodes arb raw ≠ .readOk c a) → RunAccesses s [.received arb raw, s.readSent .ok]
  | outOfRange (arb : Arb) (raw : List Byte) : s.state = .aborted → s.err = .invalidArgument →
      s.readReplyFrame arb raw → RunAccesses s [.received arb raw, s.readSent .ok]
  | writeNotSent (arb : Arb) (raw : List Byte) (r : Byte) : s.state = .aborted → s.err = .transportError →
      s.readReplyFrame arb raw → 1 ≤ r.toNat → r.toNat ≤ 32 →
      RunAccesses s [s.writeSent r .err, .received arb raw, s.readSent .ok]
  | writeUnanswered (arb : Arb) (raw : List Byte) (r : Byte) : s.state = .aborted → s.err = .noReply →
      s.readReplyFrame arb raw → s.reqId = some r →
      RunAccesses s [.noReply, s.writeSent r .ok, .received arb raw, s.readSent .ok]
  | writeRejected (arb : Arb) (raw : List Byte) (r : Byte) (arb' : Arb) (raw' : List Byte) : s.state = .aborted →
      s.err = .invalidReply ∨ s.err = .writeNotConfirmed → s.readReplyFrame arb raw → s.reqId = some r →
      ¬ s.confirmingFrame arb' raw' →
      RunAccesses s [.received arb' raw', s.writeSent r .ok, .received arb raw, s.readSent .ok]

/-- The invariant of the block: the registers keep to R16 to R21 and the present run's bus accesses to R40. -/
structure BlockInv (s : State) : Prop where
  regs : RegsInv s
  accesses : RunAccesses s (runTrace s.trace)

/-- A frame the block may hand over: the read request, or a write request for an identifier in 1..32 (R54, R103). -/
def legalRequest (p : Payload) : Bool :=
  decide (p = readRequest) ||
    (decide (p = writeRequest p.b7) && decide (1 ≤ p.b7.toNat) && decide (p.b7.toNat ≤ 32))

/-- Every frame ever handed over was a legal request at CFG_ARB_ID (R37, R54, R59). -/
def OnlyLegalSent (s : State) : Prop :=
  ∀ arb p tx, .sent arb p tx ∈ s.trace → arb = s.cfgArbId ∧ legalRequest p = true

/-- Two states with equal registers and parameters; the model's own fields are left out. -/
def sameRegs (s t : State) : Prop :=
  { s with fcOut := none, trace := [], inputs := [] } = { t with fcOut := none, trace := [], inputs := [] }

/-- Outcomes that a reader of the registers cannot tell apart. -/
def sameOutcome : Host.Outcome State Fault Refusal → Host.Outcome State Fault Refusal → Prop
  | .next s, .next t => sameRegs s t
  | .fault f, .fault g => f = g
  | .refused r, .refused q => r = q
  | _, _ => False

/-! ## Assumptions on the surroundings (R98): for claims to name; the step builds none of them in. Assumption (2) is a
property of every row: none writes a parameter. -/

/-- The row of RX or TIMEOUT. -/
def isEventRow : Instr → Bool
  | .rxRead _ _ => true
  | .rxWrite _ _ => true
  | .timeoutRead => true
  | .timeoutWrite => true
  | .encRd => false
  | .encWr _ => false
  | .decRplyReadOk _ _ _ => false
  | .decRplyWriteEcho _ _ _ => false
  | .decRplyInvalid _ _ _ => false
  | .start _ => false
  | .proceedWrite _ _ => false
  | .declineWrite => false
  | .reset => false

/-- R98 (1): the transport delivers only in answer to a receive the block started. -/
def Solicited (s : State) (i : Instr) : Prop := isEventRow i = true → s.pendingRecv ≠ none

/-- R98 (5): the transport answers the pending receive within the next `k` inputs. -/
def AnsweredWithin (k : Nat) (s : State) : Prop :=
  s.pendingRecv ≠ none → ∃ x ∈ s.inputs.take k, ∃ i, decode s.state x = .instr i ∧ isEventRow i = true

/-- R98 (3): while a receive is pending, nobody else sends on or receives from the bus handle. -/
def ExclusiveHandle (s : State) (x : Input) : Prop := s.pendingRecv ≠ none → ∀ access, x ≠ .otherUser access

/-- R98 (4): the transport does not hand the block its own transmitted frame, of this run or an earlier one. It is the
frame's origin that counts: the remote node's echo has the bytes of the write request and is no own frame (R62). -/
def NotOwnFrame (x : Input) : Prop := ∀ arb p, x ≠ .ownFrame arb p

end Sys2Proof.Machine
end

