-- ==== Sys2Proof/Certificates/Slice0/Obligations.lean ====
section
/-! DEFINITION. The statements for the provers. `trace` renders the bus accesses the rules' pseudocode makes (log entry 3),
`fcOut` the result of a unit FC operation (log entry 4); a next state written as a record update says what every other
field does: it stays. -/

open Sys2Proof Sys2Proof.Machine

/-! ## Reset -/

/-- R26: the register values after reset, with the spec's defaults of the two parameters that registers hold (R7, R8). -/
def Obligations.StateAfterReset : Prop :=
  State.reset.state = .idle ∧ State.reset.err = .noError ∧ State.reset.reason = .noReason ∧
    State.reset.curValid = false ∧ State.reset.readCurId = none ∧ State.reset.readReplyAddr = none ∧
    State.reset.wrIssued = false ∧ State.reset.readReqId = none ∧ State.reset.cfgArbId = 0x00000300 ∧
    State.reset.cfgIdMask = 0x1F

/-- R96 and R26: RESET in any state. It sends no frame: the bus record gains the mark of a reset and nothing else, and the
parameters keep their values. -/
def Obligations.ResetFromAnyState : Prop :=
  ∀ s : State,
    exec .reset s = .next
      { s with
        state := .idle, err := .noError, reason := .noReason, curValid := false, curId := none, replyAddr := none,
        wrIssued := false, reqId := none, trace := .resetMark :: s.trace }

/-! ## Unit FC -/

/-- R58: ENC_RD, in every state, gives `[0x79, 0, 0x01, 0, 0, 0, 0, 0]`, P = 0x0000_0000_0001_0079, and writes no
register. -/
def Obligations.EncRdGivesReadRequest : Prop :=
  (∀ s : State, exec .encRd s = .next { s with fcOut := some (.payload ⟨0x79, 0x00, 0x01, 0x00, 0x00, 0x00, 0x00, 0x00⟩) }) ∧
    Payload.word ⟨0x79, 0x00, 0x01, 0x00, 0x00, 0x00, 0x00, 0x00⟩ = 0x0000000000010079

/-- R59: ENC_WR for every integer: in 1..32 the write request with byte 7 = new_id (so no truncation happens) and
P = (new_id << 56) | 0x79; outside, InvalidArgument and no payload. No register is written. -/
def Obligations.EncWrChecksThenPacks : Prop :=
  ∀ (s : State) (newId : Int),
    (1 ≤ newId → newId ≤ 32 →
      ∃ b : Byte, (b.toNat : Int) = newId ∧
        exec (.encWr newId) s = .next { s with fcOut := some (.payload ⟨0x79, 0x00, 0x00, 0x00, 0x00, 0x00, 0x00, b⟩) } ∧
        Payload.word ⟨0x79, 0x00, 0x00, 0x00, 0x00, 0x00, 0x00, b⟩ =
          (BitVec.ofInt 64 newId <<< 56) ||| 0x0000000000000079) ∧
      (newId < 1 ∨ 32 < newId → exec (.encWr newId) s = .next { s with fcOut := some (.invalidArgument newId) })

/-- R61: a reply of eight bytes from the expected identifier, with byte 0 = 0x79 and byte 2 = 0x01. -/
def Obligations.ReadReplyDecodes : Prop :=
  ∀ (s : State) (arb : Arb) (b1 b3 b4 b5 b6 b7 : Byte),
    exec (.decRplyReadOk arb [0x79, b1, 0x01, b3, b4, b5, b6, b7] arb) s = .next
      { s with
        fcOut := some (.outcome (.readOk (b6 &&& s.cfgIdMask) ((b7.zeroExtend 16 <<< 8) ||| b6.zeroExtend 16))) }

/-- R62: a reply of eight bytes from the expected identifier, with byte 0 = 0x79 and byte 2 = 0x00. -/
def Obligations.WriteEchoDecodes : Prop :=
  ∀ (s : State) (arb : Arb) (b1 b3 b4 b5 b6 b7 : Byte),
    exec (.decRplyWriteEcho arb [0x79, b1, 0x00, b3, b4, b5, b6, b7] arb) s = .next
      { s with fcOut := some (.outcome (.writeEcho b7)) }

/-- R60 and R63: every other frame is Invalid, with the reason of the first test that fails. The order among the last three
tests, and so which reason wins, is the spec's own decision D9. -/
def Obligations.InvalidReplyFirstReason : Prop :=
  ∀ (s : State) (rxArb expArb : Arb),
    (∀ raw : List Byte, raw.length ≠ 8 →
      exec (.decRplyInvalid rxArb raw expArb) s = .next { s with fcOut := some (.outcome (.invalid .badLength)) }) ∧
    ∀ b0 b1 b2 b3 b4 b5 b6 b7 : Byte, (rxArb ≠ expArb ∨ b0 ≠ 0x79 ∨ (b2 ≠ 0x01 ∧ b2 ≠ 0x00)) →
      exec (.decRplyInvalid rxArb [b0, b1, b2, b3, b4, b5, b6, b7] expArb) s = .next
        { s with
          fcOut := some (.outcome (.invalid
            (if rxArb ≠ expArb then .badArbitrationId
             else if b0 ≠ 0x79 then .badCommandCode
             else .badDirection))) }

/-- R14, R64: an operation of unit FC always completes, writes no register, and its result is a function of its operands
and ID_MASK alone: in any two states with one mask it is the same. -/
def Obligations.CodecResultIsPure : Prop :=
  ∀ (i : Instr) (s s' : State), isCodecRow i = true → s.cfgIdMask = s'.cfgIdMask →
    ∃ r, exec i s = .next { s with fcOut := some r } ∧ exec i s' = .next { s' with fcOut := some r }

/-- R51: the masked word and the byte tests agree. The row a received frame falls in by the table's masks is the row of
DEC_RPLY's outcome, for every mask parameter. -/
def Obligations.MaskedRowIsOutcomeKind : Prop :=
  ∀ (idMask : Byte) (rxArb : Arb) (raw : List Byte) (expArb : Arb),
    (decodeReply rxArb raw expArb = .decRplyReadOk rxArb raw expArb ↔
      (decRply idMask rxArb raw expArb).kind = 1) ∧
    (decodeReply rxArb raw expArb = .decRplyWriteEcho rxArb raw expArb ↔
      (decRply idMask rxArb raw expArb).kind = 2) ∧
    (decodeReply rxArb raw expArb = .decRplyInvalid rxArb raw expArb ↔
      (decRply idMask rxArb raw expArb).kind = 0)

/-- R30, R49, R65: `reply_address` is 256 times byte 7 plus byte 6. -/
def Obligations.ReplyAddressLittleEndian : Prop :=
  ∀ (s : State) (arb : Arb) (b1 b3 b4 b5 b6 b7 : Byte),
    ∃ c a, exec (.decRplyReadOk arb [0x79, b1, 0x01, b3, b4, b5, b6, b7] arb) s =
        .next { s with fcOut := some (.outcome (.readOk c a)) } ∧
      a.toNat = 256 * b7.toNat + b6.toNat ∧ c.toNat ≤ b6.toNat ∧ c.toNat ≤ s.cfgIdMask.toNat

/-! ## Unit SEQ: what each row does -/

/-- R69: START in IDLE sends the read request at CFG_ARB_ID and awaits the reply, or ends the run with TransportError. -/
def Obligations.StartSendsReadRequest : Prop :=
  ∀ s : State, s.state = .idle →
    exec (.start .ok) s = .next
      { s with
        state := .awaitReadReply,
        trace := .sent s.cfgArbId ⟨0x79, 0x00, 0x01, 0x00, 0x00, 0x00, 0x00, 0x00⟩ .ok :: s.trace } ∧
    exec (.start .err) s = .next
      { s with
        state := .aborted, err := .transportError,
        trace := .sent s.cfgArbId ⟨0x79, 0x00, 0x01, 0x00, 0x00, 0x00, 0x00, 0x00⟩ .err :: s.trace }

/-- R70: TIMEOUT while the read reply is awaited ends the run with NoReply. -/
def Obligations.TimeoutReadIsNoReply : Prop :=
  ∀ s : State, s.state = .awaitReadReply →
    exec .timeoutRead s = .next { s with state := .aborted, err := .noReply, trace := .noReply :: s.trace }

/-- R71: RX while the read reply is awaited, by DEC_RPLY's outcome at CFG_ARB_ID; a write echo is the spec's decision D11. -/
def Obligations.RxReadRecordsOrAborts : Prop :=
  ∀ (s : State) (rxArb : Arb) (raw : List Byte), s.state = .awaitReadReply →
    (∀ c a, decRply s.cfgIdMask rxArb raw s.cfgArbId = .readOk c a →
      exec (.rxRead rxArb raw) s = .next
        { s with
          state := .haveCurrentId, curId := some c, replyAddr := some a, curValid := true,
          trace := .received rxArb raw :: s.trace }) ∧
    (∀ f, decRply s.cfgIdMask rxArb raw s.cfgArbId = .invalid f →
      exec (.rxRead rxArb raw) s = .next
        { s with
          state := .aborted, err := .invalidReply,
          reason :=
            (match f with
              | .badLength => .badLength
              | .badArbitrationId => .badArbitrationId
              | .badCommandCode => .badCommandCode
              | .badDirection => .badDirection),
          trace := .received rxArb raw :: s.trace }) ∧
    (∀ e, decRply s.cfgIdMask rxArb raw s.cfgArbId = .writeEcho e →
      exec (.rxRead rxArb raw) s = .next
        { s with
          state := .aborted, err := .invalidReply, reason := .unexpectedKind,
          trace := .received rxArb raw :: s.trace })

/-- R72: DECLINE_WRITE writes STATE <- DONE and nothing else (that a declined run ends there is the spec's decision D13). -/
def Obligations.DeclineEndsInDone : Prop :=
  ∀ s : State, s.state = .haveCurrentId → exec .declineWrite s = .next { s with state := .done }

/-- R73: PROCEED_WRITE for every integer and both answers of the transport; out of range nothing is sent, whatever the
answer would be (R89). Ending the run then is the spec's decision D14. -/
def Obligations.ProceedWriteChecksThenSends : Prop :=
  ∀ (s : State) (newId : Int), s.state = .haveCurrentId →
    (newId < 1 ∨ 32 < newId → ∀ tx,
      exec (.proceedWrite newId tx) s = .next { s with state := .aborted, err := .invalidArgument }) ∧
    (1 ≤ newId → newId ≤ 32 →
      ∃ b : Byte, (b.toNat : Int) = newId ∧
        exec (.proceedWrite newId .ok) s = .next
          { s with
            state := .awaitWriteReply, reqId := some b, wrIssued := true,
            trace := .sent s.cfgArbId ⟨0x79, 0x00, 0x00, 0x00, 0x00, 0x00, 0x00, b⟩ .ok :: s.trace } ∧
        exec (.proceedWrite newId .err) s = .next
          { s with
            state := .aborted, err := .transportError,
            trace := .sent s.cfgArbId ⟨0x79, 0x00, 0x00, 0x00, 0x00, 0x00, 0x00, b⟩ .err :: s.trace })

/-- R74: TIMEOUT while the write reply is awaited ends the run with NoReply; WR_ISSUED and REQ_ID keep their values. -/
def Obligations.TimeoutWriteIsNoReply : Prop :=
  ∀ s : State, s.state = .awaitWriteReply →
    exec .timeoutWrite s = .next { s with state := .aborted, err := .noReply, trace := .noReply :: s.trace }

/-- R75: the echo check. The premises on WR_ISSUED and REQ_ID hold in every state a run reaches
(`BlockInvariantKept`); ABORTED on a mismatch is the spec's decision D12, a read reply D11. -/
def Obligations.RxWriteChecksEcho : Prop :=
  ∀ (s : State) (rxArb : Arb) (raw : List Byte), s.state = .awaitWriteReply →
    (∀ e r, decRply s.cfgIdMask rxArb raw s.cfgArbId = .writeEcho e → s.wrIssued = true → s.reqId = some r →
      exec (.rxWrite rxArb raw) s = .next
        (if e = r then { s with state := .done, trace := .received rxArb raw :: s.trace }
         else { s with state := .aborted, err := .writeNotConfirmed, trace := .received rxArb raw :: s.trace })) ∧
    (∀ f, decRply s.cfgIdMask rxArb raw s.cfgArbId = .invalid f →
      exec (.rxWrite rxArb raw) s = .next
        { s with
          state := .aborted, err := .invalidReply,
          reason :=
            (match f with
              | .badLength => .badLength
              | .badArbitrationId => .badArbitrationId
              | .badCommandCode => .badCommandCode
              | .badDirection => .badDirection),
          trace := .received rxArb raw :: s.trace }) ∧
    (∀ c a, decRply s.cfgIdMask rxArb raw s.cfgArbId = .readOk c a →
      exec (.rxWrite rxArb raw) s = .next
        { s with
          state := .aborted, err := .invalidReply, reason := .unexpectedKind,
          trace := .received rxArb raw :: s.trace })

/-- R77: a row not enabled in the present state is refused by name, with no next state. -/
def Obligations.NotEnabledIsRefused : Prop :=
  ∀ (i : Instr) (s : State), enabledIn s.state i = false → exec i s = .refused (.notEnabled (mnemonic i) s.state)

/-- R68: the sequencer takes exactly the transitions of the table: its rows 1 to 15 and no other. Row 13 (an echo that is not
REQ_ID) takes in the states in which REQ_ID holds no value: that part of it, which no run reaches, is no rule of the spec but
the model's choice (log entry 18, DESIGN CHOICE). -/
def Obligations.SequencerIsTransitionTable : Prop :=
  ∀ (i : Instr) (s t : State), isCodecRow i = false → i ≠ .reset → (exec i s = .next t ↔ TableStep s i t)

/-! ## Unit SEQ: rules over all rows -/

/-- R90: the error entry writes ERR, REASON (for InvalidReply only) and STATE, and nothing else, for each of the five
errors, and for InvalidReply with each of the five reasons of R88. -/
def Obligations.ErrorEntry : Prop :=
  ∀ s : State,
    s.raise .invalidArgument = { s with state := .aborted, err := .invalidArgument } ∧
    s.raise .transportError = { s with state := .aborted, err := .transportError } ∧
    s.raise .noReply = { s with state := .aborted, err := .noReply } ∧
    s.raise .writeNotConfirmed = { s with state := .aborted, err := .writeNotConfirmed } ∧
    s.raise (.invalidReply (.frame .badLength)) =
      { s with state := .aborted, err := .invalidReply, reason := .badLength } ∧
    s.raise (.invalidReply (.frame .badArbitrationId)) =
      { s with state := .aborted, err := .invalidReply, reason := .badArbitrationId } ∧
    s.raise (.invalidReply (.frame .badCommandCode)) =
      { s with state := .aborted, err := .invalidReply, reason := .badCommandCode } ∧
    s.raise (.invalidReply (.frame .badDirection)) =
      { s with state := .aborted, err := .invalidReply, reason := .badDirection } ∧
    s.raise (.invalidReply .unexpectedKind) =
      { s with state := .aborted, err := .invalidReply, reason := .unexpectedKind }

/-- R90 over all rows: a transition that ends in ABORTED leaves every data register, valid flag and parameter. -/
def Obligations.AbortKeepsData : Prop :=
  ∀ (i : Instr) (s t : State), s.state ≠ .aborted → exec i s = .next t → t.state = .aborted →
    t.curValid = s.curValid ∧ t.curId = s.curId ∧ t.replyAddr = s.replyAddr ∧ t.wrIssued = s.wrIssued ∧
      t.reqId = s.reqId ∧ t.cfgArbId = s.cfgArbId ∧ t.cfgIdMask = s.cfgIdMask ∧ t.respTimeout = s.respTimeout ∧
      t.err ≠ .noError

/-- R76, R91: in DONE and ABORTED only RESET does anything to the registers or on the bus; a row of unit FC shows its
result and changes nothing else. -/
def Obligations.TerminalLeftOnlyByReset : Prop :=
  ∀ (i : Instr) (s t : State), s.ended = true → exec i s = .next t →
    i = .reset ∨ (isCodecRow i = true ∧ t = { s with fcOut := t.fcOut })

/-- R19, R20, R21: CUR_ID, REPLY_ADDR and CUR_VALID are written only by RX.READ (R71) and RESET, REQ_ID and WR_ISSUED only
by PROCEED_WRITE (R73) and RESET. -/
def Obligations.DataRegisterWriters : Prop :=
  ∀ (i : Instr) (s t : State), exec i s = .next t → i ≠ .reset →
    ((∀ arb raw, i ≠ .rxRead arb raw) →
      t.curValid = s.curValid ∧ t.curId = s.curId ∧ t.replyAddr = s.replyAddr) ∧
    ((∀ newId tx, i ≠ .proceedWrite newId tx) → t.wrIssued = s.wrIssued ∧ t.reqId = s.reqId)

/-- R22, R23: no row writes a configuration register, RESET included; RESP_TIMEOUT and the inputs still to come stay as
well. -/
def Obligations.ConfigurationNeverWritten : Prop :=
  ∀ (i : Instr) (s t : State), exec i s = .next t →
    t.cfgArbId = s.cfgArbId ∧ t.cfgIdMask = s.cfgIdMask ∧ t.respTimeout = s.respTimeout ∧ t.inputs = s.inputs

/-- R17, R91: once an error is recorded, only RESET changes ERR or REASON. -/
def Obligations.ErrorKeptUntilReset : Prop :=
  ∀ (i : Instr) (s t : State), RegsInv s → s.err ≠ .noError → exec i s = .next t → i ≠ .reset →
    t.err = s.err ∧ t.reason = s.reason ∧ t.state = .aborted

/-- R68: every transition of the sequencer moves to a state with a higher code (the spec marks this as derived). -/
def Obligations.StateCodeRises : Prop :=
  ∀ (i : Instr) (s t : State), isCodecRow i = false → i ≠ .reset → exec i s = .next t → s.state.code < t.state.code

/-- R14, R15, R24: the registers and the inputs are all the state there is: rows read neither the bus record nor unit FC's
last output nor the inputs to come (the model's own fields, log entries 1, 3 and 4). -/
def Obligations.NothingElseIsRead : Prop :=
  ∀ (i : Instr) (s s' : State), sameRegs s s' → sameOutcome (exec i s) (exec i s')

/-- R61, R65: a recorded CUR_ID has only bits of ID_MASK, so under the default mask 0x1F it is never 32 (R105). -/
def Obligations.CurIdWithinMask : Prop :=
  ∀ (s t : State) (arb : Arb) (raw : List Byte), exec (.rxRead arb raw) s = .next t → t.state = .haveCurrentId →
    ∃ c, t.curId = some c ∧ c &&& s.cfgIdMask = c ∧ (s.cfgIdMask = 0x1F → c.toNat ≤ 31)

/-- R101: the write request that made REQ_ID confirms itself if it is received as a reply. -/
def Obligations.OwnWriteRequestConfirms : Prop :=
  ∀ (s : State) (r : Byte), s.state = .awaitWriteReply → s.wrIssued = true → s.reqId = some r →
    exec (.rxWrite s.cfgArbId (writeRequest r).bytes) s = .next
      { s with state := .done, trace := .received s.cfgArbId (writeRequest r).bytes :: s.trace }

/-- R64, R68, R77: no row ever faults. In every state, reachable or not, every row the state enables completes, and every
row completes or is refused as not enabled. RX.WRITE is among them: where REQ_ID holds no value, which no run reaches, an
echo does not confirm the write (the model's choice under U11, log entry 18). -/
def Obligations.EnabledRowsComplete : Prop :=
  (∀ (i : Instr) (s : State), enabledIn s.state i = true → ∃ t, exec i s = .next t) ∧
  (∀ (i : Instr) (s : State), (∃ t, exec i s = .next t) ∨ exec i s = .refused (.notEnabled (mnemonic i) s.state)) ∧
  ∀ (s : State) (arb : Arb) (raw : List Byte) (e : Byte), s.state = .awaitWriteReply →
    decRply s.cfgIdMask arb raw s.cfgArbId = .writeEcho e → s.readReqId = none →
    exec (.rxWrite arb raw) s = .next
      { s with state := .aborted, err := .writeNotConfirmed, trace := .received arb raw :: s.trace }

/-! ## Invariants -/

/-- R17 to R21, R40: the block's invariant is kept by every step from every state that has it. -/
def Obligations.BlockInvariantKept : Prop :=
  ∀ s t : State, BlockInv s → step s = .next t → BlockInv t

/-- The block's invariant holds after reset. -/
def Obligations.BlockInvariantAtReset : Prop := BlockInv State.reset

/-- R37, R54, R59: every frame handed over is the read request or a write request for 1..32, at CFG_ARB_ID: kept by every
step. -/
def Obligations.OnlyLegalFramesSent : Prop :=
  ∀ s t : State, OnlyLegalSent s → step s = .next t → OnlyLegalSent t

/-- No frame has been handed over at reset. -/
def Obligations.OnlyLegalFramesAtReset : Prop := OnlyLegalSent State.reset ∧ State.reset.trace = []

/-- R76: the outputs of an ended run show one of the terminal conditions of R76's table. -/
def Obligations.TerminalConditionShown : Prop :=
  ∀ s : State, RegsInv s → s.ended = true → ∃ c, terminalCondition s = some c

/-- R78, R40: in one run at most two frames are handed over and at most two receives answered, and never more receives
than sends that succeeded. -/
def Obligations.RunIsBounded : Prop :=
  ∀ s : State, BlockInv s →
    ((runTrace s.trace).countP (fun e => match e with | .sent _ _ _ => true | _ => false)) ≤ 2 ∧
    ((runTrace s.trace).countP (fun e => match e with | .received _ _ => true | .noReply => true | _ => false)) ≤
      ((runTrace s.trace).countP (fun e => match e with | .sent _ _ .ok => true | _ => false))

/-- R40: a write request is handed over only after a frame of this run decoded as the read reply CUR_ID and REPLY_ADDR
hold. -/
def Obligations.NoWriteBeforeRead : Prop :=
  ∀ (s : State) (r : Byte) (tx : TxResult), BlockInv s → s.writeSent r tx ∈ runTrace s.trace →
    ∃ arb raw, .received arb raw ∈ runTrace s.trace ∧ s.readReplyFrame arb raw

/-- R81, R95: DONE with WR_ISSUED = 1 means that this run handed over a write request for REQ_ID and received a frame that
decodes as its echo. -/
def Obligations.ConfirmedMeansEchoed : Prop :=
  ∀ s : State, BlockInv s → s.state = .done → s.wrIssued = true →
    ∃ r arb raw, s.reqId = some r ∧ s.writeSent r .ok ∈ runTrace s.trace ∧ .received arb raw ∈ runTrace s.trace ∧
      decRply s.cfgIdMask arb raw s.cfgArbId = .writeEcho r

/-- R21, R25, R99: ABORTED with WR_ISSUED = 1 is a case in which the remote identifier is unknown: this run handed over a
write request for REQ_ID, and no frame that it received echoes it. -/
def Obligations.UnknownRemoteMeansUnconfirmedWrite : Prop :=
  ∀ s : State, BlockInv s → s.state = .aborted → s.wrIssued = true →
    s.remoteUnknown = true ∧
    (∃ r, s.reqId = some r ∧ s.writeSent r .ok ∈ runTrace s.trace) ∧
    ∀ arb raw, .received arb raw ∈ runTrace s.trace → ¬ s.confirmingFrame arb raw

/-- R15, R95: while CUR_VALID is 1, CUR_ID and REPLY_ADDR are the fields of a frame received in this run that passed the
validation. -/
def Obligations.CurIdOnlyFromValidReply : Prop :=
  ∀ s : State, BlockInv s → s.curValid = true →
    ∃ arb raw c a, .received arb raw ∈ runTrace s.trace ∧ decRply s.cfgIdMask arb raw s.cfgArbId = .readOk c a ∧
      s.readCurId = some c ∧ s.readReplyAddr = some a

/-! ## Ports -/

/-- R67: unit FC's ports compute the operations: `enc_rd_payload` is ENC_RD's word, `enc_wr_fault` is 1 exactly where
ENC_WR raises InvalidArgument and `enc_wr_payload` its word otherwise, and the decoder's outputs show DEC_RPLY's outcome on
the byte sequence the ports show, by the kind codes of R66 and the reason codes of R18 and R88; an output 'meaningful only
when' the outcome is of another kind holds no value. -/
def Obligations.CodecPortsComputeOperations : Prop :=
  ∀ (idMask : Byte) (p : FcPortsIn),
    (fcPorts idMask p).encRdPayload = readRequest.word ∧
    (fcPorts idMask p).encWrPayload = (encodeWrite p.newId.toNat).map Payload.word ∧
    ((fcPorts idMask p).encWrFault = 1 ↔ encodeWrite p.newId.toNat = none) ∧
    (∀ c a, decRply idMask p.rxArb p.rx.raw p.expArb = .readOk c a →
      (fcPorts idMask p).outKind = 1 ∧ (fcPorts idMask p).outReason = 0 ∧ (fcPorts idMask p).outCurrentId = some c ∧
        (fcPorts idMask p).outReplyAddress = some a ∧ (fcPorts idMask p).outEchoedId = none) ∧
    (∀ e, decRply idMask p.rxArb p.rx.raw p.expArb = .writeEcho e →
      (fcPorts idMask p).outKind = 2 ∧ (fcPorts idMask p).outReason = 0 ∧ (fcPorts idMask p).outCurrentId = none ∧
        (fcPorts idMask p).outReplyAddress = none ∧ (fcPorts idMask p).outEchoedId = some e) ∧
    ∀ f, decRply idMask p.rxArb p.rx.raw p.expArb = .invalid f →
      (fcPorts idMask p).outKind = 0 ∧
        (fcPorts idMask p).outReason =
          (match f with
            | .badLength => 1
            | .badArbitrationId => 2
            | .badCommandCode => 3
            | .badDirection => 4) ∧
        (fcPorts idMask p).outCurrentId = none ∧ (fcPorts idMask p).outReplyAddress = none ∧
        (fcPorts idMask p).outEchoedId = none

/-- R67, R80: bytes at index `rx_len` and above influence nothing. Two frames that agree on their length and below it give
equal outputs at unit FC's ports, equal steps at the decoder's ports, its result included, and steps at the sequencer's
ports with equal registers (there the record of what was received, the model's own, is not compared). -/
def Obligations.BytesPastLengthIgnored : Prop :=
  ∀ f g : RxFrame, f.rxLen = g.rxLen →
    (∀ k < 8, k < f.rxLen.toNat → byteAt f.rxData k = byteAt g.rxData k) →
    (∀ (idMask : Byte) (p : FcPortsIn), fcPorts idMask { p with rx := f } = fcPorts idMask { p with rx := g }) ∧
    (∀ (s : State) (rxArb expArb : Arb) (rest : List Input),
      step { s with inputs := .rply rxArb f expArb :: rest } = step { s with inputs := .rply rxArb g expArb :: rest }) ∧
    ∀ (s : State) (p : SeqPorts) (rest : List Input),
      seqPorts s { p with rx := f } = seqPorts s { p with rx := g } ∧
      sameOutcome (step { s with inputs := .seq { p with rx := f } :: rest })
        (step { s with inputs := .seq { p with rx := g } :: rest })

/-- R80, R103: `tx_valid`, `tx_arb` and `tx_data` say what a step does on the bus. With `tx_valid` = 1 the step adds just
one send, at `tx_arb`, of the payload whose word is on `tx_data`, with the transport's answer; with `tx_valid` = 0 no word is
there and no send is added. `tx_valid` is never raised while `enc_wr_fault` is 1 for the operand of PROCEED_WRITE. -/
def Obligations.TxPortsMatchBus : Prop :=
  ∀ (s : State) (p : SeqPorts),
    (∀ (t : State) (rest : List Input), s.inputs = .seq p :: rest → step s = .next t →
      ((seqPorts s p).txValid = 1 →
        ∃ q : Payload, (seqPorts s p).txData = some q.word ∧
          t.trace = .sent (seqPorts s p).txArb q (if p.txResult = 0 then .ok else .err) :: s.trace) ∧
      ((seqPorts s p).txValid = 0 →
        (seqPorts s p).txData = none ∧ t.trace.filter BusEvent.isSend = s.trace.filter BusEvent.isSend)) ∧
    ∀ q : FcPortsIn, p.cmd = 2 → q.newId = p.cmdNewId → (fcPorts s.cfgIdMask q).encWrFault = 1 →
      (seqPorts s p).txValid = 0

/-- R80: `cmd_accept` is 1 exactly when the command on `cmd` is not refused (no event and no reset being given). -/
def Obligations.CmdAcceptMeansNotRefused : Prop :=
  ∀ (s : State) (p : SeqPorts) (rest : List Input), s.inputs = .seq p :: rest → p.reset = 0 → p.rxEvent = 0 →
    p.cmd ≠ 0 →
    ((seqPorts s p).cmdAccept = 1 → ∃ t, step s = .next t) ∧
    ((seqPorts s p).cmdAccept = 0 → ∃ m, step s = .refused (.notEnabled m s.state))

/-- R38, R94, R81: while a reply is awaited a receive is pending, and one answer of the transport at the ports, a frame or
none, ends the wait. -/
def Obligations.OneAnswerEndsTheWait : Prop :=
  ∀ (s : State) (p : SeqPorts) (rest : List Input), s.pendingRecv ≠ none → s.inputs = .seq p :: rest → p.reset = 0 →
    p.rxEvent = 1 ∨ p.rxEvent = 2 →
    ∃ t, step s = .next t ∧ t.pendingRecv = none ∧ t.inputs = rest

/-- R38, R92: an event row runs only in answer to a receive the block has pending, and it ends that receive. -/
def Obligations.EventsOnlyWhileReceivePending : Prop :=
  ∀ (i : Instr) (s t : State), isEventRow i = true → exec i s = .next t →
    s.pendingRecv = some s.respTimeout ∧ t.pendingRecv = none

/-- U12: the event code 3 is refused, in every state, where nothing else is given. -/
def Obligations.UnusedEventCodeRefused : Prop :=
  ∀ (s : State) (p : SeqPorts) (rest : List Input), s.inputs = .seq p :: rest → p.reset = 0 → p.cmd = 0 →
    p.rxEvent = 3 → step s = .refused .unusedRxEvent

/-- R80, R16 to R21, R22: each output port of the status and the data registers shows its register, with the codes of R16,
R17 and R18; an identifier shows only while its valid flag is 1. -/
def Obligations.StatusPortsShowRegisters : Prop :=
  ∀ (s : State) (p : SeqPorts),
    (seqPorts s p).state =
      (match s.state with
        | .idle => 0
        | .awaitReadReply => 1
        | .haveCurrentId => 2
        | .awaitWriteReply => 3
        | .done => 4
        | .aborted => 5) ∧
    (seqPorts s p).err =
      (match s.err with
        | .noError => 0
        | .invalidArgument => 1
        | .transportError => 2
        | .noReply => 3
        | .invalidReply => 4
        | .writeNotConfirmed => 5) ∧
    (seqPorts s p).reason =
      (match s.reason with
        | .noReason => 0
        | .badLength => 1
        | .badArbitrationId => 2
        | .badCommandCode => 3
        | .badDirection => 4
        | .unexpectedKind => 5) ∧
    (seqPorts s p).curValid = (if s.curValid then 1 else 0) ∧
    (seqPorts s p).curId = (if s.curValid then s.curId else none) ∧
    (seqPorts s p).replyAddr = (if s.curValid then s.replyAddr else none) ∧
    (seqPorts s p).wrIssued = (if s.wrIssued then 1 else 0) ∧
    (seqPorts s p).reqId = (if s.wrIssued then s.reqId else none) ∧
    (seqPorts s p).txArb = s.cfgArbId

/-- R95: the outputs STATE, ERR, REASON and WR_ISSUED tell every terminal condition of R76's table from every other. Two
ended runs show the same four outputs exactly when they ended in the same line of the table (with the same reason). -/
def Obligations.OutputsTellTerminalConditions : Prop :=
  ∀ (s s' : State) (p p' : SeqPorts), RegsInv s → RegsInv s' → s.ended = true → s'.ended = true →
    (terminalCondition s = terminalCondition s' ↔
      (seqPorts s p).state = (seqPorts s' p').state ∧ (seqPorts s p).err = (seqPorts s' p').err ∧
        (seqPorts s p).reason = (seqPorts s' p').reason ∧ (seqPorts s p).wrIssued = (seqPorts s' p').wrIssued)

/-! ## The remote identifier and the surroundings -/

/-- R25, R99: when the remote identifier is unknown after a write. In a run that has a valid read reply it is unknown exactly
while a write reply is awaited, and in ABORTED with WR_ISSUED = 1 or TransportError (the failed write send); a reset in
AWAIT_WRITE_REPLY leaves it unknown and loses WR_ISSUED and REQ_ID. What counts as knowing is the model's reading of the bus
record (log entry 17). -/
def Obligations.RemoteUnknownAfterWrite : Prop :=
  ∀ s : State, BlockInv s →
    (s.curValid = true →
      (s.remoteUnknown = true ↔
        s.state = .awaitWriteReply ∨ (s.state = .aborted ∧ (s.wrIssued = true ∨ s.err = .transportError)))) ∧
    (s.state = .awaitWriteReply →
      ∃ t, exec .reset s = .next t ∧ t.remoteUnknown = true ∧ t.wrIssued = false ∧ t.reqId = none)

/-- R99: an unknown remote identifier stays unknown, through RESET and through every failed read, until a read reply is
recorded or a write is confirmed (log entry 17). -/
def Obligations.RemoteUnknownUntilReply : Prop :=
  ∀ (i : Instr) (s t : State), BlockInv s → s.remoteUnknown = true → exec i s = .next t →
    t.remoteUnknown = true ∨ (s.state = .awaitReadReply ∧ t.state = .haveCurrentId) ∨
      (s.state = .awaitWriteReply ∧ t.state = .done)

/-- R101, R100: the block cannot tell its own frame, handed back by the transport, from one another party sent, be it at
the model level or at the ports, and another user's access to the bus handle does not reach it (log entry 16). -/
def Obligations.OwnFrameIndistinguishable : Prop :=
  ∀ (s : State) (arb : Arb) (p : Payload) (access : HandleAccess) (rest : List Input),
    step { s with inputs := .ownFrame arb p :: rest } = step { s with inputs := .op (.rx arb p.bytes) :: rest } ∧
    step { s with inputs := .ownFrame arb p :: rest } =
      step { s with
        inputs := .seq { SeqPorts.quiet with rxEvent := 1, rxArb := arb, rx := ⟨8, p.word, 0, []⟩ } :: rest } ∧
    step { s with inputs := .otherUser access :: rest } = .next { s with inputs := rest }

/-! ## Inputs and decoding -/

/-- A step runs the row its next input asks for, in the state with that input taken off; quiet ports and no input change
no register; an input that names no row gets no step. The inputs are the model's own (log entry 1). -/
def Obligations.StepRunsDecodedRow : Prop :=
  ∀ s : State,
    (s.inputs = [] → step s = .next s) ∧
    ∀ (x : Input) (rest : List Input), s.inputs = x :: rest →
      (∀ i, decode s.state x = .instr i → step s = exec i { s with inputs := rest }) ∧
      (decode s.state x = .quiet → step s = .next { s with inputs := rest }) ∧
      (∀ e, decode s.state x = .rejected e → step s = .refused (refusalOf e))

/-- A word of the table placed by `withFetchWord` is the row the next step runs, in every state (log entry 2). -/
def Obligations.PlacedWordRuns : Prop :=
  ∀ (s : State) (nbits w : Nat) (i : Instr), decodeTableWord nbits w = some i →
    step (s.withFetchWord nbits w) = exec i s

/-- R45, R46, R80: decoding the encoding of a row gives the row back, with every operand at every value the ports admit. -/
def Obligations.DecodeEncodeRoundTrip : Prop :=
  ∀ (st : SeqState) (i : Instr), i.wellFormed = true → i.fitsPorts = true → i.toldIn st = true →
    decode st (encode i) = .instr i

/-- R51: whatever an input decodes to is well formed: a DEC_RPLY row is named only for operands that fall in it. -/
def Obligations.DecodedRowsWellFormed : Prop :=
  ∀ (st : SeqState) (x : Input) (i : Instr), decode st x = .instr i → i.wellFormed = true ∧ i.toldIn st = true

/-- Words and port codes written out from R45, R46, R80 and the table decode to their rows (a sanity statement). -/
def Obligations.SpecWordsDecode : Prop :=
  decode .idle (.req 0x0000000000010079) = .instr .encRd ∧
  decode .idle (.req 0x2000000000000079) = .instr (.encWr 32) ∧
  decode .idle (.rply 0x300 ⟨8, 0x0205000000010079, 0, []⟩ 0x300) =
    .instr (.decRplyReadOk 0x300 [0x79, 0, 0x01, 0, 0, 0, 0x05, 0x02] 0x300) ∧
  decode .idle (.seq ⟨0, 1, 0, 0, 0, 0, ⟨0, 0, 0, []⟩⟩) = .instr (.start .ok) ∧
  decode .awaitWriteReply (.seq ⟨0, 0, 0, 0, 2, 0, ⟨0, 0, 0, []⟩⟩) = .instr .timeoutWrite
end

