-- ==== Sys2Proof/Laws/State.lean ====
section
/-! SUPPORT. One lemma per field per named update of State, true by rfl, so that no later proof unfolds a record update. -/

namespace Sys2Proof.Machine

/-! `State.goto` -/

@[simp] theorem State.goto_state (st : SeqState) (s : State) : (s.goto st).state = st := rfl
@[simp] theorem State.goto_err (st : SeqState) (s : State) : (s.goto st).err = s.err := rfl
@[simp] theorem State.goto_reason (st : SeqState) (s : State) : (s.goto st).reason = s.reason := rfl
@[simp] theorem State.goto_curValid (st : SeqState) (s : State) : (s.goto st).curValid = s.curValid := rfl
@[simp] theorem State.goto_curId (st : SeqState) (s : State) : (s.goto st).curId = s.curId := rfl
@[simp] theorem State.goto_replyAddr (st : SeqState) (s : State) : (s.goto st).replyAddr = s.replyAddr := rfl
@[simp] theorem State.goto_wrIssued (st : SeqState) (s : State) : (s.goto st).wrIssued = s.wrIssued := rfl
@[simp] theorem State.goto_reqId (st : SeqState) (s : State) : (s.goto st).reqId = s.reqId := rfl
@[simp] theorem State.goto_cfgArbId (st : SeqState) (s : State) : (s.goto st).cfgArbId = s.cfgArbId := rfl
@[simp] theorem State.goto_cfgIdMask (st : SeqState) (s : State) : (s.goto st).cfgIdMask = s.cfgIdMask := rfl
@[simp] theorem State.goto_respTimeout (st : SeqState) (s : State) : (s.goto st).respTimeout = s.respTimeout := rfl
@[simp] theorem State.goto_fcOut (st : SeqState) (s : State) : (s.goto st).fcOut = s.fcOut := rfl
@[simp] theorem State.goto_trace (st : SeqState) (s : State) : (s.goto st).trace = s.trace := rfl
@[simp] theorem State.goto_inputs (st : SeqState) (s : State) : (s.goto st).inputs = s.inputs := rfl

/-! `State.recordRead` -/

@[simp] theorem State.recordRead_state (c : Byte) (a : Half) (s : State) : (s.recordRead c a).state = s.state := rfl
@[simp] theorem State.recordRead_err (c : Byte) (a : Half) (s : State) : (s.recordRead c a).err = s.err := rfl
@[simp] theorem State.recordRead_reason (c : Byte) (a : Half) (s : State) : (s.recordRead c a).reason = s.reason := rfl
@[simp] theorem State.recordRead_curValid (c : Byte) (a : Half) (s : State) : (s.recordRead c a).curValid = true := rfl
@[simp] theorem State.recordRead_curId (c : Byte) (a : Half) (s : State) : (s.recordRead c a).curId = some c := rfl
@[simp] theorem State.recordRead_replyAddr (c : Byte) (a : Half) (s : State) : (s.recordRead c a).replyAddr = some a := rfl
@[simp] theorem State.recordRead_wrIssued (c : Byte) (a : Half) (s : State) : (s.recordRead c a).wrIssued = s.wrIssued := rfl
@[simp] theorem State.recordRead_reqId (c : Byte) (a : Half) (s : State) : (s.recordRead c a).reqId = s.reqId := rfl
@[simp] theorem State.recordRead_cfgArbId (c : Byte) (a : Half) (s : State) : (s.recordRead c a).cfgArbId = s.cfgArbId := rfl
@[simp] theorem State.recordRead_cfgIdMask (c : Byte) (a : Half) (s : State) : (s.recordRead c a).cfgIdMask = s.cfgIdMask := rfl
@[simp] theorem State.recordRead_respTimeout (c : Byte) (a : Half) (s : State) : (s.recordRead c a).respTimeout = s.respTimeout := rfl
@[simp] theorem State.recordRead_fcOut (c : Byte) (a : Half) (s : State) : (s.recordRead c a).fcOut = s.fcOut := rfl
@[simp] theorem State.recordRead_trace (c : Byte) (a : Half) (s : State) : (s.recordRead c a).trace = s.trace := rfl
@[simp] theorem State.recordRead_inputs (c : Byte) (a : Half) (s : State) : (s.recordRead c a).inputs = s.inputs := rfl

/-! `State.recordWrite` -/

@[simp] theorem State.recordWrite_state (r : Byte) (s : State) : (s.recordWrite r).state = s.state := rfl
@[simp] theorem State.recordWrite_err (r : Byte) (s : State) : (s.recordWrite r).err = s.err := rfl
@[simp] theorem State.recordWrite_reason (r : Byte) (s : State) : (s.recordWrite r).reason = s.reason := rfl
@[simp] theorem State.recordWrite_curValid (r : Byte) (s : State) : (s.recordWrite r).curValid = s.curValid := rfl
@[simp] theorem State.recordWrite_curId (r : Byte) (s : State) : (s.recordWrite r).curId = s.curId := rfl
@[simp] theorem State.recordWrite_replyAddr (r : Byte) (s : State) : (s.recordWrite r).replyAddr = s.replyAddr := rfl
@[simp] theorem State.recordWrite_wrIssued (r : Byte) (s : State) : (s.recordWrite r).wrIssued = true := rfl
@[simp] theorem State.recordWrite_reqId (r : Byte) (s : State) : (s.recordWrite r).reqId = some r := rfl
@[simp] theorem State.recordWrite_cfgArbId (r : Byte) (s : State) : (s.recordWrite r).cfgArbId = s.cfgArbId := rfl
@[simp] theorem State.recordWrite_cfgIdMask (r : Byte) (s : State) : (s.recordWrite r).cfgIdMask = s.cfgIdMask := rfl
@[simp] theorem State.recordWrite_respTimeout (r : Byte) (s : State) : (s.recordWrite r).respTimeout = s.respTimeout := rfl
@[simp] theorem State.recordWrite_fcOut (r : Byte) (s : State) : (s.recordWrite r).fcOut = s.fcOut := rfl
@[simp] theorem State.recordWrite_trace (r : Byte) (s : State) : (s.recordWrite r).trace = s.trace := rfl
@[simp] theorem State.recordWrite_inputs (r : Byte) (s : State) : (s.recordWrite r).inputs = s.inputs := rfl

/-! `State.setFcOut` -/

@[simp] theorem State.setFcOut_state (r : FcResult) (s : State) : (s.setFcOut r).state = s.state := rfl
@[simp] theorem State.setFcOut_err (r : FcResult) (s : State) : (s.setFcOut r).err = s.err := rfl
@[simp] theorem State.setFcOut_reason (r : FcResult) (s : State) : (s.setFcOut r).reason = s.reason := rfl
@[simp] theorem State.setFcOut_curValid (r : FcResult) (s : State) : (s.setFcOut r).curValid = s.curValid := rfl
@[simp] theorem State.setFcOut_curId (r : FcResult) (s : State) : (s.setFcOut r).curId = s.curId := rfl
@[simp] theorem State.setFcOut_replyAddr (r : FcResult) (s : State) : (s.setFcOut r).replyAddr = s.replyAddr := rfl
@[simp] theorem State.setFcOut_wrIssued (r : FcResult) (s : State) : (s.setFcOut r).wrIssued = s.wrIssued := rfl
@[simp] theorem State.setFcOut_reqId (r : FcResult) (s : State) : (s.setFcOut r).reqId = s.reqId := rfl
@[simp] theorem State.setFcOut_cfgArbId (r : FcResult) (s : State) : (s.setFcOut r).cfgArbId = s.cfgArbId := rfl
@[simp] theorem State.setFcOut_cfgIdMask (r : FcResult) (s : State) : (s.setFcOut r).cfgIdMask = s.cfgIdMask := rfl
@[simp] theorem State.setFcOut_respTimeout (r : FcResult) (s : State) : (s.setFcOut r).respTimeout = s.respTimeout := rfl
@[simp] theorem State.setFcOut_fcOut (r : FcResult) (s : State) : (s.setFcOut r).fcOut = some r := rfl
@[simp] theorem State.setFcOut_trace (r : FcResult) (s : State) : (s.setFcOut r).trace = s.trace := rfl
@[simp] theorem State.setFcOut_inputs (r : FcResult) (s : State) : (s.setFcOut r).inputs = s.inputs := rfl

/-! `State.busSend` -/

@[simp] theorem State.busSend_state (p : Payload) (tx : TxResult) (s : State) : (s.busSend p tx).state = s.state := rfl
@[simp] theorem State.busSend_err (p : Payload) (tx : TxResult) (s : State) : (s.busSend p tx).err = s.err := rfl
@[simp] theorem State.busSend_reason (p : Payload) (tx : TxResult) (s : State) : (s.busSend p tx).reason = s.reason := rfl
@[simp] theorem State.busSend_curValid (p : Payload) (tx : TxResult) (s : State) : (s.busSend p tx).curValid = s.curValid := rfl
@[simp] theorem State.busSend_curId (p : Payload) (tx : TxResult) (s : State) : (s.busSend p tx).curId = s.curId := rfl
@[simp] theorem State.busSend_replyAddr (p : Payload) (tx : TxResult) (s : State) : (s.busSend p tx).replyAddr = s.replyAddr := rfl
@[simp] theorem State.busSend_wrIssued (p : Payload) (tx : TxResult) (s : State) : (s.busSend p tx).wrIssued = s.wrIssued := rfl
@[simp] theorem State.busSend_reqId (p : Payload) (tx : TxResult) (s : State) : (s.busSend p tx).reqId = s.reqId := rfl
@[simp] theorem State.busSend_cfgArbId (p : Payload) (tx : TxResult) (s : State) : (s.busSend p tx).cfgArbId = s.cfgArbId := rfl
@[simp] theorem State.busSend_cfgIdMask (p : Payload) (tx : TxResult) (s : State) : (s.busSend p tx).cfgIdMask = s.cfgIdMask := rfl
@[simp] theorem State.busSend_respTimeout (p : Payload) (tx : TxResult) (s : State) : (s.busSend p tx).respTimeout = s.respTimeout := rfl
@[simp] theorem State.busSend_fcOut (p : Payload) (tx : TxResult) (s : State) : (s.busSend p tx).fcOut = s.fcOut := rfl
@[simp] theorem State.busSend_trace (p : Payload) (tx : TxResult) (s : State) : (s.busSend p tx).trace = .sent s.cfgArbId p tx :: s.trace := rfl
@[simp] theorem State.busSend_inputs (p : Payload) (tx : TxResult) (s : State) : (s.busSend p tx).inputs = s.inputs := rfl

/-! `State.busRecv` -/

@[simp] theorem State.busRecv_state (rxArb : Arb) (raw : List Byte) (s : State) : (s.busRecv rxArb raw).state = s.state := rfl
@[simp] theorem State.busRecv_err (rxArb : Arb) (raw : List Byte) (s : State) : (s.busRecv rxArb raw).err = s.err := rfl
@[simp] theorem State.busRecv_reason (rxArb : Arb) (raw : List Byte) (s : State) : (s.busRecv rxArb raw).reason = s.reason := rfl
@[simp] theorem State.busRecv_curValid (rxArb : Arb) (raw : List Byte) (s : State) : (s.busRecv rxArb raw).curValid = s.curValid := rfl
@[simp] theorem State.busRecv_curId (rxArb : Arb) (raw : List Byte) (s : State) : (s.busRecv rxArb raw).curId = s.curId := rfl
@[simp] theorem State.busRecv_replyAddr (rxArb : Arb) (raw : List Byte) (s : State) : (s.busRecv rxArb raw).replyAddr = s.replyAddr := rfl
@[simp] theorem State.busRecv_wrIssued (rxArb : Arb) (raw : List Byte) (s : State) : (s.busRecv rxArb raw).wrIssued = s.wrIssued := rfl
@[simp] theorem State.busRecv_reqId (rxArb : Arb) (raw : List Byte) (s : State) : (s.busRecv rxArb raw).reqId = s.reqId := rfl
@[simp] theorem State.busRecv_cfgArbId (rxArb : Arb) (raw : List Byte) (s : State) : (s.busRecv rxArb raw).cfgArbId = s.cfgArbId := rfl
@[simp] theorem State.busRecv_cfgIdMask (rxArb : Arb) (raw : List Byte) (s : State) : (s.busRecv rxArb raw).cfgIdMask = s.cfgIdMask := rfl
@[simp] theorem State.busRecv_respTimeout (rxArb : Arb) (raw : List Byte) (s : State) : (s.busRecv rxArb raw).respTimeout = s.respTimeout := rfl
@[simp] theorem State.busRecv_fcOut (rxArb : Arb) (raw : List Byte) (s : State) : (s.busRecv rxArb raw).fcOut = s.fcOut := rfl
@[simp] theorem State.busRecv_trace (rxArb : Arb) (raw : List Byte) (s : State) : (s.busRecv rxArb raw).trace = .received rxArb raw :: s.trace := rfl
@[simp] theorem State.busRecv_inputs (rxArb : Arb) (raw : List Byte) (s : State) : (s.busRecv rxArb raw).inputs = s.inputs := rfl

/-! `State.busTimeout` -/

@[simp] theorem State.busTimeout_state (s : State) : s.busTimeout.state = s.state := rfl
@[simp] theorem State.busTimeout_err (s : State) : s.busTimeout.err = s.err := rfl
@[simp] theorem State.busTimeout_reason (s : State) : s.busTimeout.reason = s.reason := rfl
@[simp] theorem State.busTimeout_curValid (s : State) : s.busTimeout.curValid = s.curValid := rfl
@[simp] theorem State.busTimeout_curId (s : State) : s.busTimeout.curId = s.curId := rfl
@[simp] theorem State.busTimeout_replyAddr (s : State) : s.busTimeout.replyAddr = s.replyAddr := rfl
@[simp] theorem State.busTimeout_wrIssued (s : State) : s.busTimeout.wrIssued = s.wrIssued := rfl
@[simp] theorem State.busTimeout_reqId (s : State) : s.busTimeout.reqId = s.reqId := rfl
@[simp] theorem State.busTimeout_cfgArbId (s : State) : s.busTimeout.cfgArbId = s.cfgArbId := rfl
@[simp] theorem State.busTimeout_cfgIdMask (s : State) : s.busTimeout.cfgIdMask = s.cfgIdMask := rfl
@[simp] theorem State.busTimeout_respTimeout (s : State) : s.busTimeout.respTimeout = s.respTimeout := rfl
@[simp] theorem State.busTimeout_fcOut (s : State) : s.busTimeout.fcOut = s.fcOut := rfl
@[simp] theorem State.busTimeout_trace (s : State) : s.busTimeout.trace = .noReply :: s.trace := rfl
@[simp] theorem State.busTimeout_inputs (s : State) : s.busTimeout.inputs = s.inputs := rfl

/-! `State.raise` -/

@[simp] theorem State.raise_state (e : SeqError) (s : State) : (s.raise e).state = .aborted := rfl
@[simp] theorem State.raise_err (e : SeqError) (s : State) : (s.raise e).err = e.toErr := rfl
@[simp] theorem State.raise_reason (e : SeqError) (s : State) : (s.raise e).reason = e.reasonAfter s.reason := rfl
@[simp] theorem State.raise_curValid (e : SeqError) (s : State) : (s.raise e).curValid = s.curValid := rfl
@[simp] theorem State.raise_curId (e : SeqError) (s : State) : (s.raise e).curId = s.curId := rfl
@[simp] theorem State.raise_replyAddr (e : SeqError) (s : State) : (s.raise e).replyAddr = s.replyAddr := rfl
@[simp] theorem State.raise_wrIssued (e : SeqError) (s : State) : (s.raise e).wrIssued = s.wrIssued := rfl
@[simp] theorem State.raise_reqId (e : SeqError) (s : State) : (s.raise e).reqId = s.reqId := rfl
@[simp] theorem State.raise_cfgArbId (e : SeqError) (s : State) : (s.raise e).cfgArbId = s.cfgArbId := rfl
@[simp] theorem State.raise_cfgIdMask (e : SeqError) (s : State) : (s.raise e).cfgIdMask = s.cfgIdMask := rfl
@[simp] theorem State.raise_respTimeout (e : SeqError) (s : State) : (s.raise e).respTimeout = s.respTimeout := rfl
@[simp] theorem State.raise_fcOut (e : SeqError) (s : State) : (s.raise e).fcOut = s.fcOut := rfl
@[simp] theorem State.raise_trace (e : SeqError) (s : State) : (s.raise e).trace = s.trace := rfl
@[simp] theorem State.raise_inputs (e : SeqError) (s : State) : (s.raise e).inputs = s.inputs := rfl

/-! `State.clearRegs` -/

@[simp] theorem State.clearRegs_state (s : State) : s.clearRegs.state = .idle := rfl
@[simp] theorem State.clearRegs_err (s : State) : s.clearRegs.err = .noError := rfl
@[simp] theorem State.clearRegs_reason (s : State) : s.clearRegs.reason = .noReason := rfl
@[simp] theorem State.clearRegs_curValid (s : State) : s.clearRegs.curValid = false := rfl
@[simp] theorem State.clearRegs_curId (s : State) : s.clearRegs.curId = none := rfl
@[simp] theorem State.clearRegs_replyAddr (s : State) : s.clearRegs.replyAddr = none := rfl
@[simp] theorem State.clearRegs_wrIssued (s : State) : s.clearRegs.wrIssued = false := rfl
@[simp] theorem State.clearRegs_reqId (s : State) : s.clearRegs.reqId = none := rfl
@[simp] theorem State.clearRegs_cfgArbId (s : State) : s.clearRegs.cfgArbId = s.cfgArbId := rfl
@[simp] theorem State.clearRegs_cfgIdMask (s : State) : s.clearRegs.cfgIdMask = s.cfgIdMask := rfl
@[simp] theorem State.clearRegs_respTimeout (s : State) : s.clearRegs.respTimeout = s.respTimeout := rfl
@[simp] theorem State.clearRegs_fcOut (s : State) : s.clearRegs.fcOut = s.fcOut := rfl
@[simp] theorem State.clearRegs_trace (s : State) : s.clearRegs.trace = s.trace := rfl
@[simp] theorem State.clearRegs_inputs (s : State) : s.clearRegs.inputs = s.inputs := rfl

/-! `State.markReset` -/

@[simp] theorem State.markReset_state (s : State) : s.markReset.state = s.state := rfl
@[simp] theorem State.markReset_err (s : State) : s.markReset.err = s.err := rfl
@[simp] theorem State.markReset_reason (s : State) : s.markReset.reason = s.reason := rfl
@[simp] theorem State.markReset_curValid (s : State) : s.markReset.curValid = s.curValid := rfl
@[simp] theorem State.markReset_curId (s : State) : s.markReset.curId = s.curId := rfl
@[simp] theorem State.markReset_replyAddr (s : State) : s.markReset.replyAddr = s.replyAddr := rfl
@[simp] theorem State.markReset_wrIssued (s : State) : s.markReset.wrIssued = s.wrIssued := rfl
@[simp] theorem State.markReset_reqId (s : State) : s.markReset.reqId = s.reqId := rfl
@[simp] theorem State.markReset_cfgArbId (s : State) : s.markReset.cfgArbId = s.cfgArbId := rfl
@[simp] theorem State.markReset_cfgIdMask (s : State) : s.markReset.cfgIdMask = s.cfgIdMask := rfl
@[simp] theorem State.markReset_respTimeout (s : State) : s.markReset.respTimeout = s.respTimeout := rfl
@[simp] theorem State.markReset_fcOut (s : State) : s.markReset.fcOut = s.fcOut := rfl
@[simp] theorem State.markReset_trace (s : State) : s.markReset.trace = .resetMark :: s.trace := rfl
@[simp] theorem State.markReset_inputs (s : State) : s.markReset.inputs = s.inputs := rfl

/-! `State.giveFirst` -/

@[simp] theorem State.giveFirst_state (x : Input) (s : State) : (s.giveFirst x).state = s.state := rfl
@[simp] theorem State.giveFirst_err (x : Input) (s : State) : (s.giveFirst x).err = s.err := rfl
@[simp] theorem State.giveFirst_reason (x : Input) (s : State) : (s.giveFirst x).reason = s.reason := rfl
@[simp] theorem State.giveFirst_curValid (x : Input) (s : State) : (s.giveFirst x).curValid = s.curValid := rfl
@[simp] theorem State.giveFirst_curId (x : Input) (s : State) : (s.giveFirst x).curId = s.curId := rfl
@[simp] theorem State.giveFirst_replyAddr (x : Input) (s : State) : (s.giveFirst x).replyAddr = s.replyAddr := rfl
@[simp] theorem State.giveFirst_wrIssued (x : Input) (s : State) : (s.giveFirst x).wrIssued = s.wrIssued := rfl
@[simp] theorem State.giveFirst_reqId (x : Input) (s : State) : (s.giveFirst x).reqId = s.reqId := rfl
@[simp] theorem State.giveFirst_cfgArbId (x : Input) (s : State) : (s.giveFirst x).cfgArbId = s.cfgArbId := rfl
@[simp] theorem State.giveFirst_cfgIdMask (x : Input) (s : State) : (s.giveFirst x).cfgIdMask = s.cfgIdMask := rfl
@[simp] theorem State.giveFirst_respTimeout (x : Input) (s : State) : (s.giveFirst x).respTimeout = s.respTimeout := rfl
@[simp] theorem State.giveFirst_fcOut (x : Input) (s : State) : (s.giveFirst x).fcOut = s.fcOut := rfl
@[simp] theorem State.giveFirst_trace (x : Input) (s : State) : (s.giveFirst x).trace = s.trace := rfl
@[simp] theorem State.giveFirst_inputs (x : Input) (s : State) : (s.giveFirst x).inputs = x :: s.inputs := rfl

end Sys2Proof.Machine
end

