-- ==== Sys2Proof/Laws/Ops.lean ====
section
/-! SUPPORT. What each shared operation can do, once. -/

namespace Sys2Proof

/-! ## Payloads -/

/-- A payload's bytes give the payload back (R12). -/
@[simp] theorem Payload.ofBytes?_bytes (p : Payload) : Payload.ofBytes? p.bytes = some p := rfl

/-- Only the eight bytes of a payload read as that payload (R32). -/
theorem Payload.ofBytes?_eq_some {raw : List Byte} {p : Payload} (h : Payload.ofBytes? raw = some p) :
    raw = p.bytes := by
  unfold Payload.ofBytes? at h
  split at h
  · cases h; rfl
  · cases h

/-- A sequence of another length reads as no payload (R32). -/
theorem Payload.ofBytes?_eq_none_iff (raw : List Byte) : Payload.ofBytes? raw = none ↔ raw.length ≠ 8 := by
  unfold Payload.ofBytes?
  split
  · simp
  · rename_i hne
    simp only [true_iff]
    intro hlen
    match raw, hlen with
    | [b0, b1, b2, b3, b4, b5, b6, b7], _ => exact hne b0 b1 b2 b3 b4 b5 b6 b7 rfl

@[simp] theorem Payload.bytes_length (p : Payload) : p.bytes.length = 8 := rfl

/-! ## Words of eight bytes (R12) -/

/-- The eight bytes of a word determine it. -/
theorem word_ext {w v : PWord} (h : ∀ i < 8, byteAt w i = byteAt v i) : w = v := by
  apply BitVec.eq_of_getLsbD_eq
  intro k hk
  have hb := congrArg (fun b : Byte => b.getLsbD (k % 8)) (h (k / 8) (by omega))
  have hr : 8 * (k / 8) + k % 8 = k := Nat.div_add_mod k 8
  have hm : k % 8 < 8 := Nat.mod_lt k (by decide)
  simpa [byteAt, hr, hm] using hb

/-- Every bit of `w` at byte `i` is `w`'s bit `8*i + k` (R12). -/
theorem getLsbD_byteAt (w : PWord) (i k : Nat) (hk : k < 8) : (byteAt w i).getLsbD k = w.getLsbD (8 * i + k) := by
  simp [byteAt, hk]

@[simp] theorem byteAt_and (w v : PWord) (i : Nat) : byteAt (w &&& v) i = byteAt w i &&& byteAt v i := by
  apply BitVec.eq_of_getLsbD_eq
  intro k hk
  simp [byteAt, hk]

@[simp] theorem byteAt_or (w v : PWord) (i : Nat) : byteAt (w ||| v) i = byteAt w i ||| byteAt v i := by
  apply BitVec.eq_of_getLsbD_eq
  intro k hk
  simp [byteAt, hk]

/-- A placed byte shows at its own place. -/
@[simp] theorem byteAt_placed_same (b : Byte) {i : Nat} (hi : i < 8) : byteAt (placed b i) i = b := by
  apply BitVec.eq_of_getLsbD_eq
  intro k hk
  rw [getLsbD_byteAt _ _ _ hk, placed, BitVec.getLsbD_shiftLeft]
  have h1 : 8 * i + k < 64 := by omega
  have h2 : ¬ 8 * i + k < 8 * i := by omega
  simp only [h1, h2, decide_true, decide_false, Bool.not_false, Bool.true_and, Nat.add_sub_cancel_left]
  rw [BitVec.getLsbD_setWidth]
  simp only [decide_eq_true (by omega : k < 64), Bool.true_and]

/-- A placed byte shows at no other place. -/
@[simp] theorem byteAt_placed_other (b : Byte) {i j : Nat} (hij : i ≠ j) : byteAt (placed b j) i = 0 := by
  apply BitVec.eq_of_getLsbD_eq
  intro k hk
  rw [getLsbD_byteAt _ _ _ hk, placed, BitVec.getLsbD_shiftLeft]
  by_cases hlt : 8 * i + k < 8 * j
  · simp [hlt]
  · have hge : 8 ≤ 8 * i + k - 8 * j := by omega
    rw [BitVec.getLsbD_setWidth, BitVec.getLsbD_of_ge b _ hge]
    simp

/-- The bytes of `Payload.word` are the payload's (R12). -/
@[simp] theorem Payload.ofWord_word (p : Payload) : Payload.ofWord p.word = p := by
  simp [Payload.ofWord, Payload.word]

@[simp] theorem byteAt_word_0 (p : Payload) : byteAt p.word 0 = p.b0 := congrArg Payload.b0 p.ofWord_word
@[simp] theorem byteAt_word_1 (p : Payload) : byteAt p.word 1 = p.b1 := congrArg Payload.b1 p.ofWord_word
@[simp] theorem byteAt_word_2 (p : Payload) : byteAt p.word 2 = p.b2 := congrArg Payload.b2 p.ofWord_word
@[simp] theorem byteAt_word_3 (p : Payload) : byteAt p.word 3 = p.b3 := congrArg Payload.b3 p.ofWord_word
@[simp] theorem byteAt_word_4 (p : Payload) : byteAt p.word 4 = p.b4 := congrArg Payload.b4 p.ofWord_word
@[simp] theorem byteAt_word_5 (p : Payload) : byteAt p.word 5 = p.b5 := congrArg Payload.b5 p.ofWord_word
@[simp] theorem byteAt_word_6 (p : Payload) : byteAt p.word 6 = p.b6 := congrArg Payload.b6 p.ofWord_word
@[simp] theorem byteAt_word_7 (p : Payload) : byteAt p.word 7 = p.b7 := congrArg Payload.b7 p.ofWord_word

/-- A word is the word of its bytes (R12). -/
@[simp] theorem Payload.word_ofWord (w : PWord) : (Payload.ofWord w).word = w := by
  apply word_ext
  intro i hi
  interval_cases i <;> simp [Payload.ofWord]

/-- The mask of R51 sees bytes 0 and 2 alone. -/
theorem mask_bytes_0_2 (w v : PWord) :
    w &&& 0x0000000000FF00FF = v &&& 0x0000000000FF00FF ↔ byteAt w 0 = byteAt v 0 ∧ byteAt w 2 = byteAt v 2 := by
  constructor
  · intro h
    have h0 := congrArg (fun x => byteAt x 0) h
    have h2 := congrArg (fun x => byteAt x 2) h
    have c0 : byteAt 0x0000000000FF00FF 0 = BitVec.allOnes 8 := by decide
    have c2 : byteAt 0x0000000000FF00FF 2 = BitVec.allOnes 8 := by decide
    simp only [byteAt_and, c0, c2, BitVec.and_allOnes] at h0 h2
    exact ⟨h0, h2⟩
  · rintro ⟨h0, h2⟩
    apply word_ext
    intro i hi
    have c1 : byteAt 0x0000000000FF00FF#64 1 = 0#8 := by decide
    have c3 : byteAt 0x0000000000FF00FF#64 3 = 0#8 := by decide
    have c4 : byteAt 0x0000000000FF00FF#64 4 = 0#8 := by decide
    have c5 : byteAt 0x0000000000FF00FF#64 5 = 0#8 := by decide
    have c6 : byteAt 0x0000000000FF00FF#64 6 = 0#8 := by decide
    have c7 : byteAt 0x0000000000FF00FF#64 7 = 0#8 := by decide
    interval_cases i <;> simp [h0, h2, c1, c3, c4, c5, c6, c7]

/-- Row DEC_RPLY.READOK accepts the words with byte 0 = 0x79 and byte 2 = 0x01 (R51). -/
theorem rowReadOk_accepts_iff (w : PWord) :
    rowReadOk.accepts w = true ↔ byteAt w 0 = Config.cmdCode ∧ byteAt w 2 = Config.readFlag := by
  have h := mask_bytes_0_2 w 0x0000000000010079
  rw [MaskMatch.accepts, decide_eq_true_iff]
  exact h

/-- Row DEC_RPLY.WRITEECHO accepts the words with byte 0 = 0x79 and byte 2 = 0x00 (R51). -/
theorem rowWriteEcho_accepts_iff (w : PWord) :
    rowWriteEcho.accepts w = true ↔ byteAt w 0 = Config.cmdCode ∧ byteAt w 2 = Config.writeFlag := by
  have h := mask_bytes_0_2 w 0x0000000000000079
  rw [MaskMatch.accepts, decide_eq_true_iff]
  exact h

/-- A write request's word is that of its payload (R45). -/
theorem writeWord_eq (b : Byte) :
    placed b 7 ||| 0x0000000000000079 = Payload.word ⟨Config.cmdCode, 0, Config.writeFlag, 0, 0, 0, 0, b⟩ := by
  apply word_ext
  intro i hi
  have h : byteAt 0x0000000000000079#64 7 = 0#8 := by decide
  interval_cases i <;> simp [h] <;> decide

namespace Machine

/-! ## Enabling -/

/-- In the wanted state the transition is taken. -/
theorem onlyIn_enabled {st : SeqState} {m : String} {s : State} {act : Host.Outcome State Fault Refusal}
    (h : s.state = st) : onlyIn st m s act = act := if_pos h

/-- In every other state the input is refused (R77). -/
theorem onlyIn_refused {st : SeqState} {m : String} {s : State} {act : Host.Outcome State Fault Refusal}
    (h : s.state ≠ st) : onlyIn st m s act = .refused (.notEnabled m s.state) := if_neg h

/-- A next state comes from the wanted state and from the transition. -/
theorem onlyIn_next {st : SeqState} {m : String} {s t : State} {act : Host.Outcome State Fault Refusal}
    (h : onlyIn st m s act = .next t) : s.state = st ∧ act = .next t := by
  unfold onlyIn at h
  split at h
  · exact ⟨‹_›, h⟩
  · cases h

/-! ## Unit FC -/

/-- ENC_WR in range (R59). -/
theorem encodeWrite_inRange {n : Int} (h1 : 1 ≤ n) (h2 : n ≤ 32) :
    encodeWrite n = some (writeRequest (newIdByte n)) := by
  simp [encodeWrite, newIdInRange, Config.idMin, Config.idMax, h1, h2]

/-- ENC_WR out of range (R59). -/
theorem encodeWrite_outOfRange {n : Int} (h : n < 1 ∨ 32 < n) : encodeWrite n = none := by
  have hr : newIdInRange n = false := by
    unfold newIdInRange
    simp only [Bool.and_eq_false_iff, decide_eq_false_iff_not]
    simp only [Config.idMin, Config.idMax]
    omega
  rw [encodeWrite, hr]
  rfl

/-- A payload of ENC_WR is the write request of an identifier in 1..32 (R59). -/
theorem encodeWrite_eq_some {n : Int} {p : Payload} (h : encodeWrite n = some p) :
    1 ≤ n ∧ n ≤ 32 ∧ p = writeRequest (newIdByte n) := by
  by_cases hr : 1 ≤ n ∧ n ≤ 32
  · rw [encodeWrite_inRange hr.1 hr.2] at h
    exact ⟨hr.1, hr.2, (Option.some.inj h).symm⟩
  · rw [encodeWrite_outOfRange (by omega)] at h
    cases h

/-- ENC_WR gives no payload only out of range (R59). -/
theorem encodeWrite_eq_none {n : Int} (h : encodeWrite n = none) : n < 1 ∨ 32 < n := by
  by_contra hr
  rw [encodeWrite_inRange (by omega) (by omega)] at h
  cases h

/-- An identifier in 1..32 is its byte's value (R47: no truncation happens). -/
theorem newIdByte_toNat {n : Int} (h1 : 1 ≤ n) (h2 : n ≤ 32) : ((newIdByte n).toNat : Int) = n := by
  simp only [newIdByte, BitVec.toNat_ofInt]
  omega

/-- DEC_RPLY on a payload of eight bytes goes on to the later stages (R60). -/
@[simp] theorem decRply_bytes (m : Byte) (a : Arb) (p : Payload) (e : Arb) :
    decRply m a p.bytes e = decodePayload m a p e := rfl

/-- DEC_RPLY on a payload of another length (R60). -/
theorem decRply_badLength {m : Byte} {a e : Arb} {raw : List Byte} (h : raw.length ≠ 8) :
    decRply m a raw e = .invalid .badLength := by
  simp [decRply, (Payload.ofBytes?_eq_none_iff raw).2 h]

/-! ## The bus record of a run -/

@[simp] theorem runTrace_nil : runTrace [] = [] := rfl

@[simp] theorem runTrace_sent (a : Arb) (p : Payload) (tx : TxResult) (l : List BusEvent) :
    runTrace (.sent a p tx :: l) = .sent a p tx :: runTrace l := rfl

@[simp] theorem runTrace_received (a : Arb) (raw : List Byte) (l : List BusEvent) :
    runTrace (.received a raw :: l) = .received a raw :: runTrace l := rfl

@[simp] theorem runTrace_noReply (l : List BusEvent) : runTrace (.noReply :: l) = .noReply :: runTrace l := rfl

@[simp] theorem runTrace_resetMark (l : List BusEvent) : runTrace (.resetMark :: l) = [] := rfl

/-! ## Taking an input, and a step -/

@[simp] theorem takeInput_giveFirst (x : Input) (s : State) :
    (s.giveFirst x).takeInput = some (decode s.state x, s) := rfl

/-- With nothing given, nothing is taken. -/
theorem takeInput_nil {s : State} (h : s.inputs = []) : s.takeInput = none := by
  simp [State.takeInput, h]

/-- The first input is taken off. -/
theorem takeInput_cons {s : State} {x : Input} {rest : List Input} (h : s.inputs = x :: rest) :
    s.takeInput = some (decode s.state x, { s with inputs := rest }) := by
  simp [State.takeInput, h]

/-- Where a next state of a step comes from: no input, quiet ports, or the row the input asks for. -/
theorem step_next_cases {s t : State} (h : step s = .next t) :
    t = s ∨ (∃ x rest, s.inputs = x :: rest ∧ t = { s with inputs := rest }) ∨
      ∃ x rest i, s.inputs = x :: rest ∧ decode s.state x = .instr i ∧ exec i { s with inputs := rest } = .next t := by
  cases hin : s.inputs with
  | nil =>
    rw [step, takeInput_nil hin] at h
    cases h
    exact .inl rfl
  | cons x rest =>
    rw [step, takeInput_cons hin] at h
    cases hd : decode s.state x with
    | quiet => rw [hd] at h; cases h; exact .inr (.inl ⟨x, rest, rfl, rfl⟩)
    | instr i => rw [hd] at h; exact .inr (.inr ⟨x, rest, i, rfl, hd, h⟩)
    | rejected e => rw [hd] at h; cases h

end Machine

end Sys2Proof
end

