-- ==== Sys2Proof/Laws/Decode.lean ====
section
/-! SUPPORT. What the ports show of a received frame, and which row a frame falls in. -/

namespace Sys2Proof

/-- `rx_len` = 8: the eight bytes of `rx_data` (R67). -/
theorem RxFrame.raw_of_eight {f : RxFrame} (h : f.rxLen = 8) : f.raw = (Payload.ofWord f.rxData).bytes := by
  simp [RxFrame.raw, h, Payload.bytes, Config.frameLen]

/-- Another `rx_len`: a sequence of another length (R67). -/
theorem RxFrame.raw_length_ne {f : RxFrame} (h : f.rxLen ≠ 8) : f.raw.length ≠ 8 := by
  have hn : f.rxLen.toNat ≠ 8 := fun hc => h (BitVec.eq_of_toNat_eq hc)
  unfold RxFrame.raw
  split <;> simp [Payload.bytes, Config.frameLen] at *
  omega

/-- The ports show every byte sequence in some way (R10, R67). -/
theorem RxFrame.raw_ofRaw (raw : List Byte) : (RxFrame.ofRaw raw).raw = raw := by
  by_cases h : raw.length ≤ 8
  · have hlen : (RxFrame.ofRaw raw).rxLen.toNat = raw.length := by
      simp [RxFrame.ofRaw, Config.frameLen, h]
      omega
    rw [RxFrame.raw, hlen, if_pos h]
    simp only [RxFrame.ofRaw, Payload.ofWord_word]
    match raw, h with
    | [], _ => rfl
    | [_], _ => rfl
    | [_, _], _ => rfl
    | [_, _, _], _ => rfl
    | [_, _, _, _], _ => rfl
    | [_, _, _, _, _], _ => rfl
    | [_, _, _, _, _, _], _ => rfl
    | [_, _, _, _, _, _, _], _ => rfl
    | [_, _, _, _, _, _, _, _], _ => rfl
    | _ :: _ :: _ :: _ :: _ :: _ :: _ :: _ :: _ :: _, h => simp at h; omega
  · have hl9 : (RxFrame.ofRaw raw).rxLen = 9 := by simp [RxFrame.ofRaw, Config.frameLen, h]
    rw [RxFrame.raw, hl9, if_neg (by decide)]
    simp only [RxFrame.ofRaw, Payload.ofWord_word]
    match raw, h with
    | _ :: _ :: _ :: _ :: _ :: _ :: _ :: _ :: _ :: _, _ => rfl
    | [], h => simp at h
    | [_], h => simp at h
    | [_, _], h => simp at h
    | [_, _, _], h => simp at h
    | [_, _, _, _], h => simp at h
    | [_, _, _, _, _], h => simp at h
    | [_, _, _, _, _, _], h => simp at h
    | [_, _, _, _, _, _, _], h => simp at h
    | [_, _, _, _, _, _, _, _], h => simp at h

/-- The byte tests of R51, as a property of the payload. -/
theorem isReply_iff (dir : Byte) (a : Arb) (raw : List Byte) (e : Arb) :
    isReply dir a raw e = true ↔
      ∃ p, Payload.ofBytes? raw = some p ∧ a = e ∧ p.b0 = Config.cmdCode ∧ p.b2 = dir := by
  unfold isReply Payload.ofBytes?
  split
  · simp [and_assoc]
  · simp

/-- The masks of R51 and the byte tests name the same row. -/
theorem decodeReply_eq (a : Arb) (raw : List Byte) (e : Arb) :
    decodeReply a raw e =
      if isReply Config.readFlag a raw e then .decRplyReadOk a raw e
      else if isReply Config.writeFlag a raw e then .decRplyWriteEcho a raw e
      else .decRplyInvalid a raw e := by
  have h1 := isReply_iff Config.readFlag a raw e
  have h2 := isReply_iff Config.writeFlag a raw e
  unfold decodeReply
  cases hp : Payload.ofBytes? raw with
  | none =>
    simp only [hp, reduceCtorEq, false_and, exists_false, iff_false, Bool.not_eq_true] at h1 h2
    rw [h1, h2]
    rfl
  | some p =>
    have hr := rowReadOk_accepts_iff p.word
    have hw := rowWriteEcho_accepts_iff p.word
    simp only [byteAt_word_0, byteAt_word_2] at hr hw
    simp only [hp, Option.some.injEq, exists_eq_left'] at h1 h2
    by_cases hae : a = e <;> by_cases hb0 : p.b0 = Config.cmdCode <;> by_cases hb2 : p.b2 = Config.readFlag <;>
      by_cases hb3 : p.b2 = Config.writeFlag <;> simp_all

namespace Machine

/-- A ReadOk outcome comes from a payload that passed every test (R60, R61). -/
theorem decRply_eq_readOk {m : Byte} {a e : Arb} {raw : List Byte} {c : Byte} {x : Half}
    (h : decRply m a raw e = .readOk c x) :
    ∃ p : Payload, raw = p.bytes ∧ a = e ∧ p.b0 = Config.cmdCode ∧ p.b2 = Config.readFlag ∧
      c = currentId m p.b6 ∧ x = replyAddress p.b6 p.b7 := by
  unfold decRply at h
  cases hp : Payload.ofBytes? raw with
  | none => rw [hp] at h; cases h
  | some p =>
    rw [hp] at h
    simp only [decodePayload] at h
    split at h
    · cases h
    · split at h
      · cases h
      · split at h
        · cases h
          exact ⟨p, Payload.ofBytes?_eq_some hp, by simp_all, by simp_all, by simp_all, rfl, rfl⟩
        · split at h <;> cases h

/-- A WriteEcho outcome comes from a payload that passed every test (R60, R62). -/
theorem decRply_eq_writeEcho {m : Byte} {a e : Arb} {raw : List Byte} {r : Byte}
    (h : decRply m a raw e = .writeEcho r) :
    ∃ p : Payload, raw = p.bytes ∧ a = e ∧ p.b0 = Config.cmdCode ∧ p.b2 = Config.writeFlag ∧ r = p.b7 := by
  unfold decRply at h
  cases hp : Payload.ofBytes? raw with
  | none => rw [hp] at h; cases h
  | some p =>
    rw [hp] at h
    simp only [decodePayload] at h
    split at h
    · cases h
    · split at h
      · cases h
      · split at h
        · cases h
        · split at h
          · cases h
            exact ⟨p, Payload.ofBytes?_eq_some hp, by simp_all, by simp_all, by simp_all, rfl⟩
          · cases h

/-- DEC_RPLY looks at a frame through the ports only (R67). -/
theorem decRply_port_congr {f g : RxFrame} (h : f.rxLen = g.rxLen)
    (hb : ∀ k < 8, k < f.rxLen.toNat → byteAt f.rxData k = byteAt g.rxData k) (m : Byte) (a e : Arb) :
    decRply m a f.raw e = decRply m a g.raw e := by
  by_cases h8 : f.rxLen = 8
  · rw [RxFrame.raw_of_eight h8, RxFrame.raw_of_eight (h ▸ h8)]
    have hw : f.rxData = g.rxData := word_ext fun k hk => hb k hk (by rw [h8]; exact hk)
    rw [hw]
  · rw [decRply_badLength (RxFrame.raw_length_ne h8), decRply_badLength (RxFrame.raw_length_ne (h ▸ h8))]

end Machine

end Sys2Proof
end

