-- ==== Sys2Proof/Laws/PerInstr.lean ====
section
/-! SUPPORT. Per-instruction statements: a row's encoding carries the bits the operation table fixes for that row. -/

namespace Sys2Proof.Laws.TableWord

/-- The encoded input shows the table's match under the table's mask, on the word or the port the row names. -/
def carries (i : Instr) (x : Input) : Prop :=
  match i, x with
  | .encRd, .req w => w &&& 0xFFFFFFFFFFFFFFFF = 0x0000000000010079
  | .encWr _, .req w => w &&& 0x00FFFFFFFFFFFFFF = 0x0000000000000079
  | .decRplyReadOk _ _ _, .rply _ rx _ => rx.rxLen = 8 ∧ rx.rxData &&& 0x0000000000FF00FF = 0x0000000000010079
  | .decRplyWriteEcho _ _ _, .rply _ rx _ => rx.rxLen = 8 ∧ rx.rxData &&& 0x0000000000FF00FF = 0x0000000000000079
  | .decRplyInvalid _ _ _, .rply _ _ _ => True
  | .start _, .seq p => p.cmd &&& 3 = 1
  | .proceedWrite _ _, .seq p => p.cmd &&& 3 = 2
  | .declineWrite, .seq p => p.cmd &&& 3 = 3
  | .rxRead _ _, .seq p => p.rxEvent &&& 3 = 1
  | .rxWrite _ _, .seq p => p.rxEvent &&& 3 = 1
  | .timeoutRead, .seq p => p.rxEvent &&& 3 = 2
  | .timeoutWrite, .seq p => p.rxEvent &&& 3 = 2
  | .reset, .seq p => p.reset &&& 1 = 1
  | _, _ => False

/-- A well-formed row's encoding carries its row's bits. -/
def Statement (i : Instr) : Prop := i.wellFormed = true → carries i (encode i)

/-- The word of a reply whose bytes pass the tests of R51 (R51). -/
theorem word_of_isReply {dir : Byte} {a e : Arb} {raw : List Byte} (h : isReply dir a raw e = true) :
    (RxFrame.ofRaw raw).rxLen = 8 ∧ byteAt (RxFrame.ofRaw raw).rxData 0 = Config.cmdCode ∧
      byteAt (RxFrame.ofRaw raw).rxData 2 = dir := by
  unfold isReply at h
  split at h
  · simp only [Bool.and_eq_true, decide_eq_true_eq] at h
    obtain ⟨⟨-, rfl⟩, rfl⟩ := h
    exact ⟨rfl, byteAt_word_0 _, byteAt_word_2 _⟩
  · cases h

theorem encRd : Statement .encRd := fun _ => rfl

theorem encWr (newId : Int) : Statement (.encWr newId) := fun _ => by
  have c7 : byteAt 0x00FFFFFFFFFFFFFF#64 7 = 0#8 := by decide
  have d7 : byteAt 0x0000000000000079#64 7 = 0#8 := by decide
  apply word_ext
  intro i hi
  interval_cases i <;> simp [c7, d7] <;> decide

theorem decRplyReadOk (rxArb : Arb) (raw : List Byte) (expArb : Arb) :
    Statement (.decRplyReadOk rxArb raw expArb) := fun h =>
  have hw := word_of_isReply h
  ⟨hw.1, (mask_bytes_0_2 _ 0x0000000000010079).2 hw.2⟩

theorem decRplyWriteEcho (rxArb : Arb) (raw : List Byte) (expArb : Arb) :
    Statement (.decRplyWriteEcho rxArb raw expArb) := fun h =>
  have hw := word_of_isReply h
  ⟨hw.1, (mask_bytes_0_2 _ 0x0000000000000079).2 hw.2⟩

theorem decRplyInvalid (rxArb : Arb) (raw : List Byte) (expArb : Arb) :
    Statement (.decRplyInvalid rxArb raw expArb) := fun _ => trivial

theorem start (tx : TxResult) : Statement (.start tx) := fun _ => (by decide : (1 : BitVec 2) &&& 3 = 1)

theorem proceedWrite (newId : Int) (tx : TxResult) : Statement (.proceedWrite newId tx) := fun _ =>
  (by decide : (2 : BitVec 2) &&& 3 = 2)

theorem declineWrite : Statement .declineWrite := fun _ => (by decide : (3 : BitVec 2) &&& 3 = 3)

theorem rxRead (rxArb : Arb) (raw : List Byte) : Statement (.rxRead rxArb raw) := fun _ =>
  (by decide : (1 : BitVec 2) &&& 3 = 1)

theorem rxWrite (rxArb : Arb) (raw : List Byte) : Statement (.rxWrite rxArb raw) := fun _ =>
  (by decide : (1 : BitVec 2) &&& 3 = 1)

theorem timeoutRead : Statement .timeoutRead := fun _ => (by decide : (2 : BitVec 2) &&& 3 = 2)

theorem timeoutWrite : Statement .timeoutWrite := fun _ => (by decide : (2 : BitVec 2) &&& 3 = 2)

theorem reset : Statement .reset := fun _ => (by decide : (1 : BitVec 1) &&& 1 = 1)

end Sys2Proof.Laws.TableWord
end

