-- ==== Sys2Proof/Laws/Safety.lean ====
section
/-! SUPPORT. The invariants depend on the registers and parameters alone, and what the bus record tells of the remote
identifier. -/

namespace Sys2Proof.Machine

/-- The register invariant reads the eight registers and nothing else. -/
theorem regsInv_congr {s t : State} (h : RegsInv s) (h1 : t.state = s.state) (h2 : t.err = s.err)
    (h3 : t.reason = s.reason) (h4 : t.curValid = s.curValid) (h5 : t.curId = s.curId)
    (h6 : t.replyAddr = s.replyAddr) (h7 : t.wrIssued = s.wrIssued) (h8 : t.reqId = s.reqId) : RegsInv t := by
  cases h
  constructor <;> simp only [h1, h2, h3, h4, h5, h6, h7, h8] <;> assumption

/-- Outside ABORTED no error and no reason is recorded (R17, R18). -/
theorem regsInv_clean {s : State} (h : RegsInv s) (hs : s.state ≠ .aborted) :
    s.err = .noError ∧ s.reason = .noReason := by
  have h1 : s.err = .noError := by
    by_contra hne
    exact hs (h.errAborted.1 hne)
  refine ⟨h1, ?_⟩
  by_contra hne
  have h2 := h.reasonInvalid.1 hne
  rw [h1] at h2
  cases h2

/-- The shape of a run's bus accesses reads neither REASON nor the model's own fields. -/
theorem runAccesses_congr {s : State} {l : List BusEvent} (r : Reason) (f : Option FcResult) (tr : List BusEvent)
    (ins : List Input) (h : RunAccesses s l) :
    RunAccesses { s with reason := r, fcOut := f, trace := tr, inputs := ins } l :=
  match h with
  | .idle a => .idle a
  | .reading a => .reading a
  | .read a b c d => .read a b c d
  | .writing a b c d e f => .writing a b c d e f
  | .declined a b c d e => .declined a b c d e
  | .confirmed a b c d e f g h i j => .confirmed a b c d e f g h i j
  | .readNotSent a b c => .readNotSent a b c
  | .readUnanswered a b c => .readUnanswered a b c
  | .readRejected a b c d e f => .readRejected a b c d e f
  | .outOfRange a b c d e => .outOfRange a b c d e
  | .writeNotSent a b c d e f g h => .writeNotSent a b c d e f g h
  | .writeUnanswered a b c d e f g => .writeUnanswered a b c d e f g
  | .writeRejected a b c d e f g h i j => .writeRejected a b c d e f g h i j

/-- In IDLE the run has accessed nothing. -/
theorem runAccesses_idle {s : State} {l : List BusEvent} (h : RunAccesses s l) (hs : s.state = .idle) : l = [] := by
  cases h <;> simp_all

/-- In AWAIT_READ_REPLY the run has sent the read request. -/
theorem runAccesses_awaitRead {s : State} {l : List BusEvent} (h : RunAccesses s l) (hs : s.state = .awaitReadReply) :
    l = [s.readSent .ok] := by
  cases h <;> simp_all

/-- In HAVE_CURRENT_ID the run has sent the read request and received its reply. -/
theorem runAccesses_haveCurrent {s : State} {l : List BusEvent} (h : RunAccesses s l)
    (hs : s.state = .haveCurrentId) :
    ∃ arb raw, l = [.received arb raw, s.readSent .ok] ∧ s.readReplyFrame arb raw := by
  cases h <;> simp_all

/-- In AWAIT_WRITE_REPLY the run has sent the write request for REQ_ID as well. -/
theorem runAccesses_awaitWrite {s : State} {l : List BusEvent} (h : RunAccesses s l)
    (hs : s.state = .awaitWriteReply) :
    ∃ arb raw r, l = [s.writeSent r .ok, .received arb raw, s.readSent .ok] ∧ s.readReplyFrame arb raw ∧
      s.reqId = some r := by
  cases h <;> simp_all

/-! ## What the bus record tells of the remote identifier -/

/-- The present run's record is the newest part of the whole record. -/
theorem runTrace_append (l : List BusEvent) : ∃ older, l = runTrace l ++ older :=
  ⟨l.dropWhile _, (List.takeWhile_append_dropWhile).symm⟩

/-- No write request is the read request: byte 2 differs (R45). -/
@[simp] theorem writeRequest_ne_readRequest (r : Byte) : writeRequest r ≠ readRequest := by
  simp [writeRequest, readRequest]

@[simp] theorem writeRequest_inj {r e : Byte} : writeRequest r = writeRequest e ↔ r = e := by simp [writeRequest]

section Record

variable (m : Byte) (x a : Arb) (raw : List Byte) (tx : TxResult) (older : List BusEvent)

@[simp] theorem writeUnsettled_nil : writeUnsettled m x [] = false := rfl

@[simp] theorem writeUnsettled_noReply : writeUnsettled m x (.noReply :: older) = writeUnsettled m x older := rfl

@[simp] theorem writeUnsettled_resetMark : writeUnsettled m x (.resetMark :: older) = writeUnsettled m x older := rfl

@[simp] theorem writeUnsettled_received : writeUnsettled m x (.received a raw :: older) =
    (!settles m x a raw older && writeUnsettled m x older) := rfl

@[simp] theorem writeUnsettled_readSent :
    writeUnsettled m x (.sent a readRequest tx :: older) = writeUnsettled m x older := by
  simp [writeUnsettled]

@[simp] theorem writeUnsettled_writeSent (r : Byte) : writeUnsettled m x (.sent a (writeRequest r) tx :: older) = true := by
  simp [writeUnsettled]

end Record

/-- A read reply settles the read request (R71). -/
theorem settles_readSent {s : State} {a : Arb} {raw : List Byte} {c : Byte} {addr : Half}
    (h : s.decodes a raw = .readOk c addr) (tx : TxResult) (older : List BusEvent) :
    settles s.cfgIdMask s.cfgArbId a raw (s.readSent tx :: older) = true := by
  unfold State.decodes at h
  simp [settles, State.readSent, h]

/-- A frame settles a write request exactly when it decodes as its echo (R75). -/
theorem settles_writeSent_iff {s : State} {a : Arb} {raw : List Byte} (r : Byte) (tx : TxResult)
    (older : List BusEvent) :
    settles s.cfgIdMask s.cfgArbId a raw (s.writeSent r tx :: older) = true ↔ s.decodes a raw = .writeEcho r := by
  simp only [settles, State.writeSent, State.decodes]
  cases decRply s.cfgIdMask a raw s.cfgArbId <;> simp [eq_comm, (writeRequest_ne_readRequest r).symm]

end Sys2Proof.Machine
end

