-- ==== Sys2Proof/Tests/Slice0.lean ====
section
/-! SUPPORT. Tests from the spec's own vectors (95_test_vectors.md, named E, W, V, R, X, T there), the WellFormed smoke, and
one witness for each obligation with hypotheses. -/

namespace Sys2Proof.Tests

open Sys2Proof.Machine

/-! ## Small states -/

/-- S8's good read reply. -/
def goodReply : List Byte := [0x79, 0, 0x01, 0, 0, 0, 0x05, 0x02]

/-- S10's echo of identifier 32. -/
def echo32 : List Byte := [0x79, 0, 0x00, 0, 0, 0, 0, 32]

/-- S10's echo of another identifier. -/
def echo31 : List Byte := [0x79, 0, 0x00, 0, 0, 0, 0, 31]

/-- After `START ok`. -/
def sAwaitRead : State :=
  { State.reset with state := .awaitReadReply, trace := [.sent 0x300 readRequest .ok] }

/-- After S8's reply. -/
def sHave : State :=
  { State.reset with
    state := .haveCurrentId, curValid := true, curId := some 5, replyAddr := some 0x0205,
    trace := [.received 0x300 goodReply, .sent 0x300 readRequest .ok] }

/-- After `PROCEED_WRITE 32, ok`. -/
def sAwaitWrite : State :=
  { sHave with
    state := .awaitWriteReply, wrIssued := true, reqId := some 32,
    trace := [.sent 0x300 (writeRequest 32) .ok, .received 0x300 goodReply, .sent 0x300 readRequest .ok] }

/-- After S10's echo. -/
def sDone : State := { sAwaitWrite with state := .done, trace := .received 0x300 echo32 :: sAwaitWrite.trace }

/-- After S10's mismatching echo. -/
def sMismatch : State :=
  { sAwaitWrite with
    state := .aborted, err := .writeNotConfirmed, trace := .received 0x300 echo31 :: sAwaitWrite.trace }

/-- After a timeout of the read. -/
def sNoReply : State := { sAwaitRead with state := .aborted, err := .noReply, trace := .noReply :: sAwaitRead.trace }

/-- The ports with a received frame. -/
def rxPorts (event : BitVec 2) (arb : Arb) (len : BitVec 4) (data : PWord) : SeqPorts :=
  { SeqPorts.quiet with rxEvent := event, rxArb := arb, rx := ⟨len, data, 0, []⟩ }

/-! ## WellFormed refuses, one term for each check -/

theorem test_wf_readOk_refuses_echo : (Instr.decRplyReadOk 0x300 echo32 0x300).wellFormed = false := by decide
theorem test_wf_readOk_refuses_arb : (Instr.decRplyReadOk 0x301 goodReply 0x300).wellFormed = false := by decide
theorem test_wf_readOk_refuses_command :
    (Instr.decRplyReadOk 0x300 [0x78, 0, 0x01, 0, 0, 0, 5, 2] 0x300).wellFormed = false := by decide
theorem test_wf_writeEcho_refuses_short : (Instr.decRplyWriteEcho 0x300 [0x79, 0, 0] 0x300).wellFormed = false := by decide
theorem test_wf_invalid_refuses_good : (Instr.decRplyInvalid 0x300 goodReply 0x300).wellFormed = false := by decide
theorem test_wf_invalid_refuses_echo : (Instr.decRplyInvalid 0x300 echo32 0x300).wellFormed = false := by decide
theorem test_fits_refuses_negative : (Instr.encWr (-1)).fitsPorts = false := by decide
theorem test_fits_refuses_large : (Instr.proceedWrite 256 .ok).fitsPorts = false := by decide

/-! ## Every constructor's decoding, from a word or port code written out from the spec -/

/-- R45: the read request, P = 0x0000_0000_0001_0079. -/
theorem test_decode_encRd : decode .idle (.req 0x0000000000010079) = .instr .encRd := by decide
/-- W6: P = 0x2000_0000_0000_0079. -/
theorem test_decode_encWr : decode .idle (.req 0x2000000000000079) = .instr (.encWr 32) := by decide
/-- S8: P = 0x0205_0000_0001_0079. -/
theorem test_decode_readOk :
    decode .idle (.rply 0x300 ⟨8, 0x0205000000010079, 0, []⟩ 0x300) = .instr (.decRplyReadOk 0x300 goodReply 0x300) := by
  decide
/-- S10: P = 0x2000_0000_0000_0079. -/
theorem test_decode_writeEcho :
    decode .idle (.rply 0x300 ⟨8, 0x2000000000000079, 0, []⟩ 0x300) = .instr (.decRplyWriteEcho 0x300 echo32 0x300) := by
  decide
/-- V11: byte 2 = 0x02. -/
theorem test_decode_invalid :
    decode .idle (.rply 0x300 ⟨8, 0x0205000000020079, 0, []⟩ 0x300) =
      .instr (.decRplyInvalid 0x300 [0x79, 0, 0x02, 0, 0, 0, 5, 2] 0x300) := by
  decide
/-- V2: seven bytes; the eighth byte at the port is not there. -/
theorem test_decode_short :
    decode .idle (.rply 0x300 ⟨7, 0xFF05000000010079, 0, []⟩ 0x300) =
      .instr (.decRplyInvalid 0x300 [0x79, 0, 0x01, 0, 0, 0, 5] 0x300) := by
  decide
/-- R80: `cmd` = 1, `tx_result` = 1. -/
theorem test_decode_start :
    decode .idle (.seq { SeqPorts.quiet with cmd := 1, txResult := 1 }) = .instr (.start .err) := by decide
/-- R80: `cmd` = 2. -/
theorem test_decode_proceed :
    decode .haveCurrentId (.seq { SeqPorts.quiet with cmd := 2, cmdNewId := 33 }) = .instr (.proceedWrite 33 .ok) := by
  decide
/-- R80: `cmd` = 3. -/
theorem test_decode_decline : decode .haveCurrentId (.seq { SeqPorts.quiet with cmd := 3 }) = .instr .declineWrite := by
  decide
/-- R80: `rx_event` = 1 while the read reply is awaited. -/
theorem test_decode_rxRead :
    decode .awaitReadReply (.seq (rxPorts 1 0x300 8 0x0205000000010079)) = .instr (.rxRead 0x300 goodReply) := by decide
/-- R80: `rx_event` = 1 while the echo is awaited. -/
theorem test_decode_rxWrite :
    decode .awaitWriteReply (.seq (rxPorts 1 0x300 8 0x2000000000000079)) = .instr (.rxWrite 0x300 echo32) := by decide
/-- R80: `rx_event` = 2. -/
theorem test_decode_timeoutRead : decode .awaitReadReply (.seq (rxPorts 2 0 0 0)) = .instr .timeoutRead := by decide
/-- R80: `rx_event` = 2. -/
theorem test_decode_timeoutWrite : decode .awaitWriteReply (.seq (rxPorts 2 0 0 0)) = .instr .timeoutWrite := by decide
/-- The table: `reset` = 1. -/
theorem test_decode_reset : decode .done (.seq { SeqPorts.quiet with reset := 1 }) = .instr .reset := by decide
/-- A word no encoder operation emits: byte 6 is not 0 (R52). -/
theorem test_decode_noRequest : decode .idle (.req 0x0101000000000079) = .rejected .noSuchRequest := by decide
/-- All ports 0. -/
theorem test_decode_quiet : decode .awaitReadReply (.seq SeqPorts.quiet) = .quiet := by decide

/-! ## Meanings against the spec's vectors -/

/-- W7, W10, W12: no truncation before the check. -/
theorem test_encWr_288 : exec (.encWr 288) State.reset =
    .next { State.reset with fcOut := some (.invalidArgument 288) } := rfl
/-- W6. -/
theorem test_encWr_32 : encodeWrite 32 = some ⟨0x79, 0, 0, 0, 0, 0, 0, 0x20⟩ := by decide
theorem test_encWr_33 : encodeWrite 33 = none := by decide
theorem test_encWr_neg : encodeWrite (-1) = none := by decide
/-- V6: length before arbitration identifier. -/
theorem test_V6 : decRply 0x1F 0x301 [0x79, 0, 0x01, 0, 0, 0, 5] 0x300 = .invalid .badLength := by decide
/-- V7: arbitration identifier before command code. -/
theorem test_V7 : decRply 0x1F 0x301 [0x78, 0, 0x01, 0, 0, 0, 5, 2] 0x300 = .invalid .badArbitrationId := by decide
/-- V10: command code before direction. -/
theorem test_V10 : decRply 0x1F 0x300 [0x78, 0, 0x02, 0, 0, 0, 5, 2] 0x300 = .invalid .badCommandCode := by decide
/-- V13: the flag is a whole byte. -/
theorem test_V13 : decRply 0x1F 0x300 [0x79, 0, 0x81, 0, 0, 0, 5, 2] 0x300 = .invalid .badDirection := by decide
/-- R9 under both masks. -/
theorem test_R9 : decRply 0x1F 0x300 [0x79, 0, 0x01, 0, 0, 0, 0x3F, 0] 0x300 = .readOk 31 0x003F ∧
    decRply 0x2F 0x300 [0x79, 0, 0x01, 0, 0, 0, 0x3F, 0] 0x300 = .readOk 47 0x003F := by decide
/-- R15: no sign extension. -/
theorem test_R15 : decRply 0x1F 0x300 [0x79, 0, 0x01, 0, 0, 0, 0, 0x80] 0x300 = .readOk 0 0x8000 := by decide
/-- X5: byte 6 of an echo is not read. -/
theorem test_X5 : decRply 0x1F 0x300 [0x79, 0, 0x00, 0, 0, 0, 0x99, 0x05] 0x300 = .writeEcho 5 := by decide

/-- T1, at the ports, through a step. -/
theorem test_T1 : step (State.reset.giveFirst (.seq { SeqPorts.quiet with cmd := 1 })) = .next sAwaitRead := rfl
/-- T2. -/
theorem test_T2 : exec (.start .err) State.reset = .next
    { State.reset with state := .aborted, err := .transportError, trace := [.sent 0x300 readRequest .err] } := rfl
/-- T3. -/
theorem test_T3 : exec .timeoutRead sAwaitRead = .next sNoReply := rfl
/-- T4. -/
theorem test_T4 : exec (.rxRead 0x300 goodReply) sAwaitRead = .next sHave := rfl
/-- T7. -/
theorem test_T7 : exec (.rxRead 0x300 [0x79, 0, 0, 0, 0, 0, 0, 5]) sAwaitRead = .next
    { sAwaitRead with
      state := .aborted, err := .invalidReply, reason := .unexpectedKind,
      trace := .received 0x300 [0x79, 0, 0, 0, 0, 0, 0, 5] :: sAwaitRead.trace } := rfl
/-- T8. -/
theorem test_T8 : exec .declineWrite sHave = .next { sHave with state := .done } := rfl
/-- T9. -/
theorem test_T9 : exec (.proceedWrite 32 .ok) sHave = .next sAwaitWrite := rfl
/-- T11: InvalidArgument, not TransportError. -/
theorem test_T11 : exec (.proceedWrite 0 .err) sHave = .next { sHave with state := .aborted, err := .invalidArgument } := rfl
/-- T14. -/
theorem test_T14 : exec .timeoutWrite sAwaitWrite = .next
    { sAwaitWrite with state := .aborted, err := .noReply, trace := .noReply :: sAwaitWrite.trace } := rfl
/-- T15. -/
theorem test_T15 : exec (.rxWrite 0x300 echo32) sAwaitWrite = .next sDone := rfl
/-- T16. -/
theorem test_T16 : exec (.rxWrite 0x300 echo31) sAwaitWrite = .next sMismatch := rfl
/-- T20: refused. -/
theorem test_T20 : exec (.start .ok) sAwaitRead = .refused (.notEnabled "START" .awaitReadReply) := rfl
/-- T23: refused. -/
theorem test_T23 : exec (.proceedWrite 7 .ok) sNoReply = .refused (.notEnabled "PROCEED_WRITE" .aborted) := rfl
/-- T25: RESET clears the registers. -/
theorem test_T25 : exec .reset sMismatch = .next { State.reset with trace := .resetMark :: sMismatch.trace } := rfl

/-- The bare words of the table that name a row of their own (log entry 2). -/
theorem test_table_words : decodeTableWord 64 0x0000000000010079 = some .encRd ∧
    decodeTableWord 64 0x0000000000000079 = some (.encWr 0) ∧
    decodeTableWord 64 0x0205000000010079 = some (.decRplyReadOk 0x300 goodReply 0x300) ∧
    decodeTableWord 64 0 = some (.decRplyInvalid 0x300 [0, 0, 0, 0, 0, 0, 0, 0] 0x300) ∧
    decodeTableWord 8 1 = some (.start .ok) ∧ decodeTableWord 8 2 = some (.proceedWrite 0 .ok) ∧
    decodeTableWord 8 3 = some .declineWrite ∧ decodeTableWord 8 4 = none := by decide

/-! ## The invariants hold in the small states -/

theorem test_regs_reset : RegsInv State.reset := by constructor <;> simp [State.reset]
theorem test_regs_awaitRead : RegsInv sAwaitRead := by constructor <;> simp [sAwaitRead, State.reset]
theorem test_regs_have : RegsInv sHave := by constructor <;> simp [sHave, State.reset]
theorem test_regs_awaitWrite : RegsInv sAwaitWrite := by constructor <;> simp [sAwaitWrite, sHave, State.reset]
theorem test_regs_done : RegsInv sDone := by constructor <;> simp [sDone, sAwaitWrite, sHave, State.reset]
theorem test_regs_mismatch : RegsInv sMismatch := by constructor <;> simp [sMismatch, sAwaitWrite, sHave, State.reset]

theorem test_read_frame_have : sHave.readReplyFrame 0x300 goodReply := ⟨5, 0x0205, by decide, rfl, rfl⟩
theorem test_read_frame_done : sDone.readReplyFrame 0x300 goodReply := ⟨5, 0x0205, by decide, rfl, rfl⟩
theorem test_read_frame_mismatch : sMismatch.readReplyFrame 0x300 goodReply := ⟨5, 0x0205, by decide, rfl, rfl⟩

theorem test_block_have : BlockInv sHave := ⟨test_regs_have, .read 0x300 goodReply rfl test_read_frame_have⟩
theorem test_block_awaitWrite : BlockInv sAwaitWrite :=
  ⟨test_regs_awaitWrite, .writing 0x300 goodReply 32 rfl ⟨5, 0x0205, by decide, rfl, rfl⟩ rfl⟩
theorem test_block_done : BlockInv sDone :=
  ⟨test_regs_done,
    .confirmed 0x300 goodReply 32 0x300 echo32 rfl rfl test_read_frame_done rfl ⟨32, by decide, rfl⟩⟩
theorem test_block_mismatch : BlockInv sMismatch := by
  refine ⟨test_regs_mismatch, .writeRejected 0x300 goodReply 32 0x300 echo31 rfl (.inr rfl) test_read_frame_mismatch rfl ?_⟩
  rintro ⟨r, hr, hq⟩
  have h31 : sMismatch.decodes 0x300 echo31 = .writeEcho 31 := by decide
  rw [h31] at hr
  cases hr
  exact absurd hq (by decide)

/-! ## Witnesses: one for each obligation with hypotheses, one for each of its clauses -/

theorem test_witness_EncWrChecksThenPacks : (1 : Int) ≤ 1 ∧ (32 : Int) ≤ 32 ∧ (0 : Int) < 1 ∧ (32 : Int) < 33 := by decide

/-- S8, X5's kind and the four reasons of R88, at the decoder's ports. -/
theorem test_witness_CodecPortsComputeOperations :
    decRply 0x1F 0x300 (RxFrame.mk 8 0x0205000000010079 0 []).raw 0x300 = .readOk 5 0x0205 ∧
    decRply 0x1F 0x300 (RxFrame.mk 8 0x2000000000000079 0 []).raw 0x300 = .writeEcho 32 ∧
    decRply 0x1F 0x300 (RxFrame.mk 7 0x0205000000010079 0 []).raw 0x300 = .invalid .badLength ∧
    decRply 0x1F 0x301 (RxFrame.mk 8 0x0205000000010079 0 []).raw 0x300 = .invalid .badArbitrationId ∧
    decRply 0x1F 0x300 (RxFrame.mk 8 0x0205000000010078 0 []).raw 0x300 = .invalid .badCommandCode ∧
    decRply 0x1F 0x300 (RxFrame.mk 8 0x0205000000020079 0 []).raw 0x300 = .invalid .badDirection := by decide

/-- R88's reasons as REASON records them, with R18's codes. -/
theorem test_reasons : (FrameFault.badLength.toReason, FrameFault.badArbitrationId.toReason,
      FrameFault.badCommandCode.toReason, FrameFault.badDirection.toReason) =
    (.badLength, .badArbitrationId, .badCommandCode, .badDirection) ∧
    (Reason.badLength.code, Reason.badArbitrationId.code, Reason.badCommandCode.code, Reason.badDirection.code,
      Reason.unexpectedKind.code) = (1, 2, 3, 4, 5) := by decide

theorem test_witness_InvalidReplyFirstReason : ([] : List Byte).length ≠ 8 ∧ (0x301 : Arb) ≠ 0x300 ∧
    (0x78 : Byte) ≠ 0x79 ∧ ((0x02 : Byte) ≠ 0x01 ∧ (0x02 : Byte) ≠ 0x00) := by decide

theorem test_witness_CodecResultIsPure : isCodecRow (.encWr 7) = true ∧ State.reset.cfgIdMask = sDone.cfgIdMask := by
  decide

theorem test_witness_StartSendsReadRequest : State.reset.state = .idle := rfl

theorem test_witness_TimeoutReadIsNoReply : sAwaitRead.state = .awaitReadReply := rfl

theorem test_witness_RxReadRecordsOrAborts : sAwaitRead.state = .awaitReadReply ∧
    decRply sAwaitRead.cfgIdMask 0x300 goodReply sAwaitRead.cfgArbId = .readOk 5 0x0205 ∧
    decRply sAwaitRead.cfgIdMask 0x301 goodReply sAwaitRead.cfgArbId = .invalid .badArbitrationId ∧
    decRply sAwaitRead.cfgIdMask 0x300 echo32 sAwaitRead.cfgArbId = .writeEcho 32 := by decide

theorem test_witness_DeclineEndsInDone : sHave.state = .haveCurrentId := rfl

theorem test_witness_ProceedWriteChecksThenSends : sHave.state = .haveCurrentId ∧ (0 : Int) < 1 ∧ (32 : Int) < 33 ∧
    (1 : Int) ≤ 32 ∧ (32 : Int) ≤ 32 := by decide

theorem test_witness_TimeoutWriteIsNoReply : sAwaitWrite.state = .awaitWriteReply := rfl

theorem test_witness_RxWriteChecksEcho : sAwaitWrite.state = .awaitWriteReply ∧
    decRply sAwaitWrite.cfgIdMask 0x300 echo32 sAwaitWrite.cfgArbId = .writeEcho 32 ∧
    decRply sAwaitWrite.cfgIdMask 0x300 echo31 sAwaitWrite.cfgArbId = .writeEcho 31 ∧
    sAwaitWrite.wrIssued = true ∧ sAwaitWrite.reqId = some 32 ∧
    decRply sAwaitWrite.cfgIdMask 0x300 [] sAwaitWrite.cfgArbId = .invalid .badLength ∧
    decRply sAwaitWrite.cfgIdMask 0x300 goodReply sAwaitWrite.cfgArbId = .readOk 5 0x0205 := by decide

theorem test_witness_NotEnabledIsRefused : enabledIn sDone.state (.start .ok) = false := rfl

theorem test_witness_SequencerIsTransitionTable : isCodecRow .declineWrite = false ∧ Instr.declineWrite ≠ .reset := by
  decide

theorem test_witness_AbortKeepsData : sAwaitWrite.state ≠ .aborted ∧
    exec (.rxWrite 0x300 echo31) sAwaitWrite = .next sMismatch ∧ sMismatch.state = .aborted := ⟨by decide, rfl, rfl⟩

theorem test_witness_TerminalLeftOnlyByReset : sDone.ended = true ∧
    exec .reset sDone = .next { State.reset with trace := .resetMark :: sDone.trace } ∧
    exec .encRd sDone = .next { sDone with fcOut := some (.payload readRequest) } := ⟨rfl, rfl, rfl⟩

theorem test_witness_DataRegisterWriters : exec .declineWrite sHave = .next { sHave with state := .done } ∧
    Instr.declineWrite ≠ .reset := ⟨rfl, by decide⟩

theorem test_witness_ConfigurationNeverWritten : exec .timeoutRead sAwaitRead = .next sNoReply := rfl

theorem test_witness_ErrorKeptUntilReset : RegsInv sMismatch ∧ sMismatch.err ≠ .noError ∧
    exec .encRd sMismatch = .next { sMismatch with fcOut := some (.payload readRequest) } ∧ Instr.encRd ≠ .reset :=
  ⟨test_regs_mismatch, by decide, rfl, by decide⟩

theorem test_witness_StateCodeRises : isCodecRow (.proceedWrite 32 .ok) = false ∧
    Instr.proceedWrite 32 .ok ≠ .reset ∧ exec (.proceedWrite 32 .ok) sHave = .next sAwaitWrite :=
  ⟨rfl, by decide, rfl⟩

theorem test_witness_NothingElseIsRead : sameRegs sHave { sHave with trace := [], fcOut := some (.invalidArgument 0) } :=
  rfl

theorem test_witness_CurIdWithinMask : exec (.rxRead 0x300 goodReply) sAwaitRead = .next sHave ∧
    sHave.state = .haveCurrentId ∧ sAwaitRead.cfgIdMask = 0x1F := ⟨rfl, rfl, rfl⟩

theorem test_witness_OwnWriteRequestConfirms : sAwaitWrite.state = .awaitWriteReply ∧ sAwaitWrite.wrIssued = true ∧
    sAwaitWrite.reqId = some 32 := ⟨rfl, rfl, rfl⟩

theorem test_witness_EnabledRowsComplete : enabledIn sHave.state .declineWrite = true ∧
    { sAwaitWrite with wrIssued := false }.state = .awaitWriteReply ∧
    decRply sAwaitWrite.cfgIdMask 0x300 echo32 sAwaitWrite.cfgArbId = .writeEcho 32 ∧
    { sAwaitWrite with wrIssued := false }.readReqId = none := by decide

theorem test_witness_BlockInvariantKept : BlockInv sHave ∧
    step (sHave.giveFirst (.op .declineWrite)) = .next { sHave with state := .done } := ⟨test_block_have, rfl⟩

theorem test_witness_OnlyLegalFramesSent : OnlyLegalSent State.reset ∧
    step (State.reset.giveFirst (.op (.start .ok))) = .next sAwaitRead :=
  ⟨fun _ _ _ h => absurd h (List.not_mem_nil), rfl⟩

theorem test_witness_TerminalConditionShown : RegsInv sDone ∧ sDone.ended = true ∧ RegsInv sMismatch ∧
    sMismatch.ended = true := ⟨test_regs_done, rfl, test_regs_mismatch, rfl⟩

theorem test_witness_RunIsBounded : BlockInv sDone := test_block_done

theorem test_witness_NoWriteBeforeRead : BlockInv sAwaitWrite ∧
    sAwaitWrite.writeSent 32 .ok ∈ runTrace sAwaitWrite.trace := ⟨test_block_awaitWrite, List.mem_cons_self⟩

theorem test_witness_ConfirmedMeansEchoed : BlockInv sDone ∧ sDone.state = .done ∧ sDone.wrIssued = true :=
  ⟨test_block_done, rfl, rfl⟩

theorem test_witness_UnknownRemoteMeansUnconfirmedWrite : BlockInv sMismatch ∧ sMismatch.state = .aborted ∧
    sMismatch.wrIssued = true ∧ .received 0x300 echo31 ∈ runTrace sMismatch.trace ∧
    .received 0x300 goodReply ∈ runTrace sMismatch.trace := ⟨test_block_mismatch, rfl, rfl, by decide, by decide⟩

theorem test_witness_CurIdOnlyFromValidReply : BlockInv sHave ∧ sHave.curValid = true := ⟨test_block_have, rfl⟩

/-- Two frames of length 7 that differ in the byte at index 7 alone. -/
theorem test_witness_BytesPastLengthIgnored :
    (RxFrame.mk 7 0x0005000000010079 0 []).rxLen = (RxFrame.mk 7 0xFF05000000010079 1 [2]).rxLen ∧
    ∀ k < 8, k < (7 : BitVec 4).toNat → byteAt 0x0005000000010079 k = byteAt 0xFF05000000010079 k := by decide

theorem test_witness_TxPortsMatchBus :
    (State.reset.giveFirst (.seq { SeqPorts.quiet with cmd := 1 })).inputs = .seq { SeqPorts.quiet with cmd := 1 } :: [] ∧
    step (State.reset.giveFirst (.seq { SeqPorts.quiet with cmd := 1 })) = .next sAwaitRead ∧
    (seqPorts (State.reset.giveFirst (.seq { SeqPorts.quiet with cmd := 1 })) { SeqPorts.quiet with cmd := 1 }).txValid = 1 ∧
    (seqPorts (State.reset.giveFirst (.seq { SeqPorts.quiet with cmd := 1 })) { SeqPorts.quiet with cmd := 1 }).txData =
      some 0x0000000000010079 ∧
    step (sAwaitRead.giveFirst (.seq (rxPorts 2 0 0 0))) = .next sNoReply ∧
    (seqPorts (sAwaitRead.giveFirst (.seq (rxPorts 2 0 0 0))) (rxPorts 2 0 0 0)).txValid = 0 ∧
    (fcPorts 0x1F ⟨33, 0, RxFrame.empty, 0⟩).encWrFault = 1 := ⟨rfl, rfl, by decide, by decide, rfl, rfl, rfl⟩

theorem test_witness_CmdAcceptMeansNotRefused :
    (State.reset.giveFirst (.seq { SeqPorts.quiet with cmd := 1 })).inputs = .seq { SeqPorts.quiet with cmd := 1 } :: [] ∧
    SeqPorts.quiet.reset = 0 ∧ SeqPorts.quiet.rxEvent = 0 ∧ (1 : BitVec 2) ≠ 0 ∧ (3 : BitVec 2) ≠ 0 ∧
    (seqPorts (State.reset.giveFirst (.seq { SeqPorts.quiet with cmd := 1 }))
      { SeqPorts.quiet with cmd := 1 }).cmdAccept = 1 ∧
    (seqPorts (State.reset.giveFirst (.seq { SeqPorts.quiet with cmd := 3 }))
      { SeqPorts.quiet with cmd := 3 }).cmdAccept = 0 := by decide

theorem test_witness_OneAnswerEndsTheWait :
    (sAwaitRead.giveFirst (.seq (rxPorts 2 0 0 0))).pendingRecv ≠ none ∧
    (sAwaitRead.giveFirst (.seq (rxPorts 2 0 0 0))).inputs = .seq (rxPorts 2 0 0 0) :: [] ∧
    (rxPorts 2 0 0 0).reset = 0 ∧ (rxPorts 2 0 0 0).rxEvent = 2 ∧
    (sAwaitWrite.giveFirst (.seq (rxPorts 1 0x300 8 0))).pendingRecv ≠ none ∧ (rxPorts 1 0x300 8 0).rxEvent = 1 := by
  decide

theorem test_witness_EventsOnlyWhileReceivePending : isEventRow .timeoutRead = true ∧
    exec .timeoutRead sAwaitRead = .next sNoReply := ⟨rfl, rfl⟩

theorem test_witness_UnusedEventCodeRefused :
    (sAwaitRead.giveFirst (.seq (rxPorts 3 0 0 0))).inputs = .seq (rxPorts 3 0 0 0) :: [] ∧
    (rxPorts 3 0 0 0).reset = 0 ∧ (rxPorts 3 0 0 0).cmd = 0 ∧ (rxPorts 3 0 0 0).rxEvent = 3 ∧
    step (sAwaitRead.giveFirst (.seq (rxPorts 3 0 0 0))) = .refused .unusedRxEvent := ⟨rfl, rfl, rfl, rfl, rfl⟩

theorem test_witness_OutputsTellTerminalConditions : RegsInv sDone ∧ RegsInv sMismatch ∧ sDone.ended = true ∧
    sMismatch.ended = true ∧ terminalCondition sDone = some .writeConfirmed ∧
    terminalCondition sMismatch = some .echoMismatch := ⟨test_regs_done, test_regs_mismatch, rfl, rfl, rfl, rfl⟩

theorem test_witness_RemoteUnknownAfterWrite : BlockInv sMismatch ∧ sMismatch.curValid = true ∧ BlockInv sAwaitWrite ∧
    sAwaitWrite.state = .awaitWriteReply := ⟨test_block_mismatch, rfl, test_block_awaitWrite, rfl⟩

theorem test_witness_RemoteUnknownUntilReply : BlockInv sAwaitWrite ∧ sAwaitWrite.remoteUnknown = true ∧
    exec (.rxWrite 0x300 echo32) sAwaitWrite = .next sDone := ⟨test_block_awaitWrite, by decide, rfl⟩

/-- R99's cases: an unanswered write, a mismatched one, TransportError on the write send, a reset in AWAIT_WRITE_REPLY; and
a confirmed write, after which it is known. -/
theorem test_remote_unknown : sAwaitWrite.remoteUnknown = true ∧ sMismatch.remoteUnknown = true ∧
    { sHave with state := .aborted, err := .transportError, trace := sHave.writeSent 7 .err :: sHave.trace }.remoteUnknown
      = true ∧
    sAwaitWrite.clearRegs.markReset.remoteUnknown = true ∧ sDone.remoteUnknown = false ∧ sHave.remoteUnknown = false := by
  decide

/-- R98 (4) by origin: S10's genuine echo has the bytes of the write request (R62) and is no own frame; the write request
handed back is one, and it confirms itself (R101). -/
theorem test_own_frame : echo32 = (writeRequest 32).bytes ∧ NotOwnFrame (.op (.rx 0x300 echo32)) ∧
    ¬ NotOwnFrame (.ownFrame 0x300 (writeRequest 32)) ∧
    step (sAwaitWrite.giveFirst (.ownFrame 0x300 (writeRequest 32))) = .next sDone :=
  ⟨rfl, fun _ _ h => (nomatch h), fun h => h _ _ rfl, rfl⟩

theorem test_witness_StepRunsDecodedRow : State.reset.inputs = [] ∧
    (State.reset.giveFirst (.op (.start .ok))).inputs = .op (.start .ok) :: [] ∧
    decode .idle (.op (.start .ok)) = .instr (.start .ok) ∧
    decode .idle (.seq SeqPorts.quiet) = .quiet ∧ decode .idle (.seq (rxPorts 3 0 0 0)) = .rejected .unusedRxEvent := by
  decide

theorem test_witness_PlacedWordRuns : decodeTableWord 8 1 = some (.start .ok) ∧
    step (State.reset.withFetchWord 8 1) = .next sAwaitRead := ⟨by decide, rfl⟩

theorem test_witness_DecodeEncodeRoundTrip :
    (Instr.decRplyReadOk 0x300 goodReply 0x300).wellFormed = true ∧
    (Instr.decRplyReadOk 0x300 goodReply 0x300).fitsPorts = true ∧
    (Instr.decRplyReadOk 0x300 goodReply 0x300).toldIn .idle = true ∧
    (Instr.encWr 0).fitsPorts = true ∧ (Instr.proceedWrite 255 .err).fitsPorts = true ∧
    (Instr.rxWrite 0x300 echo32).toldIn .awaitWriteReply = true ∧
    (Instr.rxRead 0x300 goodReply).toldIn .awaitReadReply = true := by
  decide

theorem test_witness_DecodedRowsWellFormed :
    decode .idle (.op (.decRply 0x300 goodReply 0x300)) = .instr (.decRplyReadOk 0x300 goodReply 0x300) := by decide

end Sys2Proof.Tests
end

section
/-! PROOFS. What one row can do, said once: the rows of unit FC show a result, RESET clears the registers, and every other
row takes a transition of R68's table. -/

namespace Sys2Proof.Machine

/-! ## Unit FC -/

/-- A row of unit FC shows a result that depends on its operands and ID_MASK alone (R14, R64). -/
theorem exec_codecRow {i : Instr} (hi : isCodecRow i = true) (m : Byte) :
    ∃ r, ∀ s : State, s.cfgIdMask = m → exec i s = .next (s.setFcOut r) := by
  cases i with
  | encRd => exact ⟨_, fun _ _ => rfl⟩
  | encWr newId =>
    cases he : encodeWrite newId with
    | none => exact ⟨.invalidArgument newId, fun s _ => by simp [exec, execEncWr, he]⟩
    | some p => exact ⟨.payload p, fun s _ => by simp [exec, execEncWr, he]⟩
  | decRplyReadOk rxArb raw expArb => exact ⟨.outcome (decRply m rxArb raw expArb), fun _ hm => hm ▸ rfl⟩
  | decRplyWriteEcho rxArb raw expArb => exact ⟨.outcome (decRply m rxArb raw expArb), fun _ hm => hm ▸ rfl⟩
  | decRplyInvalid rxArb raw expArb => exact ⟨.outcome (decRply m rxArb raw expArb), fun _ hm => hm ▸ rfl⟩
  | start _ | proceedWrite _ _ | declineWrite | rxRead _ _ | rxWrite _ _ | timeoutRead | timeoutWrite | reset =>
    cases hi

/-! ## Unit SEQ: each row takes a transition of R68's table -/

theorem tableStep_of_execStart {tx : TxResult} {s t : State} (h : execStart tx s = .next t) :
    TableStep s (.start tx) t := by
  obtain ⟨hs, hact⟩ := onlyIn_next h
  cases tx with
  | ok => cases hact; exact .row1 hs
  | err => cases hact; exact .row2 hs

theorem tableStep_of_execProceedWrite {newId : Int} {tx : TxResult} {s t : State}
    (h : execProceedWrite newId tx s = .next t) : TableStep s (.proceedWrite newId tx) t := by
  obtain ⟨hs, hact⟩ := onlyIn_next h
  cases he : encodeWrite newId with
  | none =>
    rw [he] at hact
    cases hact
    exact .row8 newId tx hs (encodeWrite_eq_none he)
  | some p =>
    obtain ⟨h1, h32, rfl⟩ := encodeWrite_eq_some he
    rw [he] at hact
    cases tx with
    | ok => cases hact; exact .row9 newId hs h1 h32
    | err => cases hact; exact .row10 newId hs h1 h32

theorem tableStep_of_execDeclineWrite {s t : State} (h : execDeclineWrite s = .next t) :
    TableStep s .declineWrite t := by
  obtain ⟨hs, hact⟩ := onlyIn_next h
  cases hact
  exact .row7 hs

theorem tableStep_of_execRxRead {rxArb : Arb} {raw : List Byte} {s t : State} (h : execRxRead rxArb raw s = .next t) :
    TableStep s (.rxRead rxArb raw) t := by
  obtain ⟨hs, hact⟩ := onlyIn_next h
  cases hd : decRply s.cfgIdMask rxArb raw s.cfgArbId with
  | readOk c a => rw [hd] at hact; cases hact; exact .row4 rxArb raw c a hs hd
  | invalid f => rw [hd] at hact; cases hact; cases f <;> exact .row5 rxArb raw _ hs hd
  | writeEcho e => rw [hd] at hact; cases hact; exact .row6 rxArb raw e hs hd

theorem tableStep_of_execRxWrite {rxArb : Arb} {raw : List Byte} {s t : State}
    (h : execRxWrite rxArb raw s = .next t) : TableStep s (.rxWrite rxArb raw) t := by
  obtain ⟨hs, hact⟩ := onlyIn_next h
  cases hd : decRply s.cfgIdMask rxArb raw s.cfgArbId with
  | writeEcho e =>
    simp only [hd] at hact
    split at hact
    · rename_i hr; cases hact; exact .row12 rxArb raw e hs hd hr
    · rename_i hr; cases hact; exact .row13 rxArb raw e hs hd hr
  | invalid f => rw [hd] at hact; cases hact; cases f <;> exact .row14 rxArb raw _ hs hd
  | readOk c a => rw [hd] at hact; cases hact; exact .row15 rxArb raw c a hs hd

theorem tableStep_of_execTimeoutRead {s t : State} (h : execTimeoutRead s = .next t) :
    TableStep s .timeoutRead t := by
  obtain ⟨hs, hact⟩ := onlyIn_next h
  cases hact
  exact .row3 hs

theorem tableStep_of_execTimeoutWrite {s t : State} (h : execTimeoutWrite s = .next t) :
    TableStep s .timeoutWrite t := by
  obtain ⟨hs, hact⟩ := onlyIn_next h
  cases hact
  exact .row11 hs

/-- Where a next state of a row comes from: unit FC's output, RESET, or a transition of R68's table. -/
theorem exec_next_cases {i : Instr} {s t : State} (h : exec i s = .next t) :
    (∃ r, isCodecRow i = true ∧ t = s.setFcOut r) ∨ (i = .reset ∧ t = s.clearRegs.markReset) ∨ TableStep s i t := by
  cases hi : isCodecRow i with
  | true =>
    obtain ⟨r, hr⟩ := exec_codecRow hi s.cfgIdMask
    rw [hr s rfl] at h
    cases h
    exact .inl ⟨r, rfl, rfl⟩
  | false =>
    refine .inr ?_
    cases i with
    | encRd | encWr _ | decRplyReadOk _ _ _ | decRplyWriteEcho _ _ _ | decRplyInvalid _ _ _ => cases hi
    | start tx => exact .inr (tableStep_of_execStart h)
    | proceedWrite newId tx => exact .inr (tableStep_of_execProceedWrite h)
    | declineWrite => exact .inr (tableStep_of_execDeclineWrite h)
    | rxRead rxArb raw => exact .inr (tableStep_of_execRxRead h)
    | rxWrite rxArb raw => exact .inr (tableStep_of_execRxWrite h)
    | timeoutRead => exact .inr (tableStep_of_execTimeoutRead h)
    | timeoutWrite => exact .inr (tableStep_of_execTimeoutWrite h)
    | reset => cases h; exact .inl ⟨rfl, rfl⟩

/-! ## What R68's table leaves unchanged -/

/-- No transition of the table leaves DONE or ABORTED (R76, R91). -/
theorem tableStep_not_ended {i : Instr} {s t : State} (h : TableStep s i t) : s.ended = false := by
  cases h <;> simp [State.ended, *]

theorem tableStep_not_aborted {i : Instr} {s t : State} (h : TableStep s i t) : s.state ≠ .aborted := by
  intro hs
  have hrunning := tableStep_not_ended h
  simp [State.ended, hs] at hrunning

theorem tableStep_config {i : Instr} {s t : State} (h : TableStep s i t) :
    t.cfgArbId = s.cfgArbId ∧ t.cfgIdMask = s.cfgIdMask ∧ t.respTimeout = s.respTimeout ∧ t.inputs = s.inputs := by
  cases h <;> exact ⟨rfl, rfl, rfl, rfl⟩

/-- Row 4 alone, an RX.READ, writes the read registers (R19, R20). -/
theorem tableStep_readRegs {i : Instr} {s t : State} (h : TableStep s i t) (hi : ∀ arb raw, i ≠ .rxRead arb raw) :
    t.curValid = s.curValid ∧ t.curId = s.curId ∧ t.replyAddr = s.replyAddr := by
  cases h with
  | row4 arb raw => exact absurd rfl (hi arb raw)
  | _ => exact ⟨rfl, rfl, rfl⟩

/-- Row 9 alone, a PROCEED_WRITE, writes the write registers (R21). -/
theorem tableStep_writeRegs {i : Instr} {s t : State} (h : TableStep s i t)
    (hi : ∀ newId tx, i ≠ .proceedWrite newId tx) : t.wrIssued = s.wrIssued ∧ t.reqId = s.reqId := by
  cases h with
  | row9 newId => exact absurd rfl (hi newId .ok)
  | _ => exact ⟨rfl, rfl⟩

/-- The only transition into HAVE_CURRENT_ID is row 4: CUR_ID is then the identifier of the frame received (R71). -/
theorem tableStep_rxRead_haveCurrentId {s t : State} {arb : Arb} {raw : List Byte}
    (h : TableStep s (.rxRead arb raw) t) (ht : t.state = .haveCurrentId) :
    ∃ c a, s.decodes arb raw = .readOk c a ∧ t.curId = some c := by
  cases h with
  | row4 _ _ c a _ hd => exact ⟨c, a, hd, rfl⟩
  | row5 | row6 => cases ht

/-! ## The identifier under the mask (R48) -/

theorem currentId_and_mask (m b : Byte) : currentId m b &&& m = currentId m b := by
  rw [currentId, BitVec.and_assoc, BitVec.and_self]

theorem currentId_toNat_le_mask (m b : Byte) : (currentId m b).toNat ≤ m.toNat := by
  rw [currentId, BitVec.toNat_and]
  exact Nat.and_le_right

/-! ## Registers and parameters are all that a row reads -/

/-- States that agree on registers and parameters differ in the model's own three fields alone. -/
theorem sameRegs_eq_update {s s' : State} (h : sameRegs s s') :
    s' = { s with fcOut := s'.fcOut, trace := s'.trace, inputs := s'.inputs } := by
  cases s
  cases s'
  simp_all [sameRegs]

/-- Enabling reads STATE alone. -/
theorem sameOutcome_onlyIn {s s' : State} {st : SeqState} {m : String} {act act' : Host.Outcome State Fault Refusal}
    (hs : s'.state = s.state) (hact : sameOutcome act act') :
    sameOutcome (onlyIn st m s act) (onlyIn st m s' act') := by
  by_cases h : s.state = st
  · rwa [onlyIn_enabled h, onlyIn_enabled (hs.trans h)]
  · rw [onlyIn_refused h, onlyIn_refused (hs ▸ h), hs]
    rfl

/-- What a row makes of the registers does not depend on the model's own three fields. -/
theorem sameOutcome_exec_update (i : Instr) (s : State) (f : Option FcResult) (tr : List BusEvent) (ins : List Input) :
    sameOutcome (exec i s) (exec i { s with fcOut := f, trace := tr, inputs := ins }) := by
  cases i with
  | encRd | decRplyReadOk | decRplyWriteEcho | decRplyInvalid | reset => exact rfl
  | encWr newId =>
    simp only [exec, execEncWr]
    cases encodeWrite newId <;> exact rfl
  | start tx => cases tx <;> exact sameOutcome_onlyIn rfl rfl
  | declineWrite | timeoutRead | timeoutWrite => exact sameOutcome_onlyIn rfl rfl
  | proceedWrite newId tx =>
    refine sameOutcome_onlyIn rfl ?_
    cases encodeWrite newId with
    | none => exact rfl
    | some p => cases tx <;> exact rfl
  | rxRead rxArb raw =>
    refine sameOutcome_onlyIn rfl ?_
    cases decRply s.cfgIdMask rxArb raw s.cfgArbId <;> exact rfl
  | rxWrite rxArb raw =>
    refine sameOutcome_onlyIn rfl ?_
    dsimp only
    cases decRply s.cfgIdMask rxArb raw s.cfgArbId with
    | writeEcho e =>
      change sameOutcome (if s.readReqId = some e then _ else _) (if s.readReqId = some e then _ else _)
      split <;> exact rfl
    | invalid | readOk => exact rfl

end Sys2Proof.Machine
end

section
/-! PROOFS. The block's invariant: the registers (R16 to R21, R76), the bus accesses of a run (R40), and what an invariant
state's record tells. -/

namespace Sys2Proof.Machine

/-! ## The registers -/

/-- The values CUR_VALID and WR_ISSUED have in each state of a run (R19, R21, R40). -/
def phaseFits : SeqState → (curValid wrIssued : Bool) → Bool
  | .idle, cur, wr => !cur && !wr
  | .awaitReadReply, cur, wr => !cur && !wr
  | .haveCurrentId, cur, wr => cur && !wr
  | .awaitWriteReply, cur, wr => cur && wr
  | .done, cur, _ => cur
  | .aborted, cur, wr => cur || !wr

/-- The values of CUR_VALID and WR_ISSUED with which each error can end a run (R76's table). -/
def abortFits : Err → (curValid wrIssued : Bool) → Bool
  | .noError, _, _ => false
  | .invalidArgument, cur, wr => cur && !wr
  | .transportError, _, wr => !wr
  | .noReply, cur, wr => cur == wr
  | .invalidReply, cur, wr => cur == wr
  | .writeNotConfirmed, cur, wr => cur && wr

theorem regsInv_phaseFits {s : State} (h : RegsInv s) : phaseFits s.state s.curValid s.wrIssued = true := by
  cases hs : s.state with
  | idle => simp [phaseFits, h.curBefore (.inl hs), h.wrBefore (.inl hs)]
  | awaitReadReply => simp [phaseFits, h.curBefore (.inr hs), h.wrBefore (.inr (.inl hs))]
  | haveCurrentId => simp [phaseFits, h.curAfter (.inl hs), h.wrBefore (.inr (.inr hs))]
  | awaitWriteReply => simp [phaseFits, h.curAfter (.inr (.inl hs)), h.wrAfter hs]
  | done => simp [phaseFits, h.curAfter (.inr (.inr hs))]
  | aborted => cases hw : s.wrIssued <;> simp [phaseFits, h.wrNeedsCur, hw]

/-- With no error recorded, the register invariant is that the valid flags say which registers hold a value, and fit the
state. -/
theorem regsInv_of_clean {s : State} (herr : s.err = .noError) (hreason : s.reason = .noReason)
    (hs : s.state ≠ .aborted) (hphase : phaseFits s.state s.curValid s.wrIssued = true)
    (hcur : s.curId.isSome = s.curValid) (haddr : s.replyAddr.isSome = s.curValid)
    (hreq : s.reqId.isSome = s.wrIssued) (hrange : ∀ r, s.reqId = some r → 1 ≤ r.toNat ∧ r.toNat ≤ 32) :
    RegsInv s where
  errAborted := by simp [herr, hs]
  reasonInvalid := by simp [herr, hreason]
  curIdHeld := hcur
  replyAddrHeld := haddr
  reqIdHeld := hreq
  reqIdRange := hrange
  curBefore := by rintro (h | h) <;> simp_all [phaseFits]
  curAfter := by rintro (h | h | h) <;> simp_all [phaseFits]
  wrBefore := by rintro (h | h | h) <;> simp_all [phaseFits]
  wrAfter := by intro h; simp_all [phaseFits]
  wrNeedsCur := by intro h; cases hst : s.state <;> simp_all [phaseFits]
  errUnsent := by simp [herr]
  errAfterRead := by simp [herr]
  errSent := by simp [herr]
  errPhase := by simp [herr]

theorem regsInv_reset (s : State) : RegsInv s.clearRegs.markReset :=
  regsInv_of_clean rfl rfl nofun rfl rfl rfl rfl nofun

/-- Entering ABORTED keeps the register invariant where the flags fit the error (R17, R18, R76). -/
theorem regsInv_abort {s : State} (h : RegsInv s) {e : Err} {r : Reason} (tr : List BusEvent)
    (hfit : abortFits e s.curValid s.wrIssued = true) (hreason : r ≠ .noReason ↔ e = .invalidReply) :
    RegsInv { s with state := .aborted, err := e, reason := r, trace := tr } where
  errAborted := by cases e <;> simp_all [abortFits]
  reasonInvalid := hreason
  curIdHeld := h.curIdHeld
  replyAddrHeld := h.replyAddrHeld
  reqIdHeld := h.reqIdHeld
  reqIdRange := h.reqIdRange
  curBefore := by simp
  curAfter := by simp
  wrBefore := by simp
  wrAfter := by simp
  wrNeedsCur := h.wrNeedsCur
  errUnsent := by cases e <;> simp_all [abortFits]
  errAfterRead := by cases e <;> simp_all [abortFits]
  errSent := by cases e <;> simp_all [abortFits]
  errPhase := by cases e <;> simp_all [abortFits]

/-- The identifier byte of a write request sent is in 1..32 (R21, R59). -/
theorem newIdByte_range {n : Int} (h1 : 1 ≤ n) (h32 : n ≤ 32) : 1 ≤ (newIdByte n).toNat ∧ (newIdByte n).toNat ≤ 32 := by
  have h := newIdByte_toNat h1 h32
  omega

/-- Every transition of R68's table keeps the register invariant. -/
theorem tableStep_regsInv {i : Instr} {s t : State} (h : RegsInv s) (hst : TableStep s i t) : RegsInv t := by
  have hphase := regsInv_phaseFits h
  obtain ⟨herr, hreason⟩ := regsInv_clean h (tableStep_not_aborted hst)
  cases hst with
  | row1 hs =>
    rw [hs] at hphase
    exact regsInv_of_clean herr hreason nofun hphase h.curIdHeld h.replyAddrHeld h.reqIdHeld h.reqIdRange
  | row4 _ _ _ _ hs =>
    simp only [hs, phaseFits, Bool.and_eq_true, Bool.not_eq_true'] at hphase
    exact regsInv_of_clean herr hreason nofun (by simp [phaseFits, hphase]) rfl rfl h.reqIdHeld h.reqIdRange
  | row7 hs =>
    simp only [hs, phaseFits, Bool.and_eq_true] at hphase
    exact regsInv_of_clean herr hreason nofun hphase.1 h.curIdHeld h.replyAddrHeld h.reqIdHeld h.reqIdRange
  | row9 newId hs h1 h32 =>
    simp only [hs, phaseFits, Bool.and_eq_true] at hphase
    refine regsInv_of_clean herr hreason nofun (by simp [phaseFits, hphase]) h.curIdHeld h.replyAddrHeld rfl ?_
    rintro r hr
    cases hr
    exact newIdByte_range h1 h32
  | row12 _ _ _ hs =>
    simp only [hs, phaseFits, Bool.and_eq_true] at hphase
    exact regsInv_of_clean herr hreason nofun hphase.1 h.curIdHeld h.replyAddrHeld h.reqIdHeld h.reqIdRange
  | row5 _ _ f | row14 _ _ f => exact regsInv_abort h _ (by simp_all [phaseFits, abortFits]) (by cases f <;> simp)
  | row2 | row3 | row6 | row8 | row10 | row11 | row13 | row15 =>
    exact regsInv_abort h _ (by simp_all [phaseFits, abortFits]) (by simp [hreason])

/-! ## The bus accesses of a run -/

/-- An access is put before those of the run. -/
theorem runAccesses_cons {t : State} {e : BusEvent} {tr l : List BusEvent} (hrun : runTrace tr = l)
    (he : e ≠ .resetMark) (h : RunAccesses t (e :: l)) : RunAccesses t (runTrace (e :: tr)) := by
  rwa [runTrace, List.takeWhile_cons_of_pos (by simpa using he), ← runTrace, hrun]

/-- REQ_ID is readable while WR_ISSUED is 1 (R21). -/
theorem readReqId_of_wrIssued {s : State} (h : s.wrIssued = true) : s.readReqId = s.reqId := if_pos h

theorem readReplyFrame_not_confirmingFrame {s : State} {arb : Arb} {raw : List Byte} (h : s.readReplyFrame arb raw) :
    ¬ s.confirmingFrame arb raw := by
  obtain ⟨c, a, hd, -⟩ := h
  rintro ⟨r, hd', -⟩
  cases hd.symm.trans hd'

/-- Every transition of R68's table extends the run's bus accesses as R40 allows. -/
theorem tableStep_runAccesses {i : Instr} {s t : State} (h : BlockInv s) (hst : TableStep s i t) :
    RunAccesses t (runTrace t.trace) := by
  obtain ⟨hregs, hacc⟩ := h
  cases hst with
  | row1 hs => exact runAccesses_cons (runAccesses_idle hacc hs) nofun (.reading rfl)
  | row2 hs =>
    exact runAccesses_cons (runAccesses_idle hacc hs) nofun (.readNotSent rfl rfl (hregs.curBefore (.inl hs)))
  | row3 hs =>
    exact runAccesses_cons (runAccesses_awaitRead hacc hs) nofun (.readUnanswered rfl rfl (hregs.curBefore (.inr hs)))
  | row4 arb raw c a hs hd =>
    exact runAccesses_cons (runAccesses_awaitRead hacc hs) nofun (.read arb raw rfl ⟨c, a, hd, rfl, rfl⟩)
  | row5 arb raw f hs hd =>
    exact runAccesses_cons (runAccesses_awaitRead hacc hs) nofun
      (.readRejected arb raw rfl rfl (hregs.curBefore (.inr hs)) fun _ _ hd' => nomatch hd.symm.trans hd')
  | row6 arb raw e hs hd =>
    exact runAccesses_cons (runAccesses_awaitRead hacc hs) nofun
      (.readRejected arb raw rfl rfl (hregs.curBefore (.inr hs)) fun _ _ hd' => nomatch hd.symm.trans hd')
  | row7 hs =>
    obtain ⟨arb, raw, hrun, hread⟩ := runAccesses_haveCurrent hacc hs
    exact hrun ▸ .declined arb raw rfl (hregs.wrBefore (.inr (.inr hs))) hread
  | row8 newId tx hs =>
    obtain ⟨arb, raw, hrun, hread⟩ := runAccesses_haveCurrent hacc hs
    exact hrun ▸ .outOfRange arb raw rfl rfl hread
  | row9 newId hs =>
    obtain ⟨arb, raw, hrun, hread⟩ := runAccesses_haveCurrent hacc hs
    exact runAccesses_cons hrun nofun (.writing arb raw _ rfl hread rfl)
  | row10 newId hs h1 h32 =>
    obtain ⟨arb, raw, hrun, hread⟩ := runAccesses_haveCurrent hacc hs
    obtain ⟨hlo, hhi⟩ := newIdByte_range h1 h32
    exact runAccesses_cons hrun nofun (.writeNotSent arb raw _ rfl rfl hread hlo hhi)
  | row11 hs =>
    obtain ⟨arb, raw, r, hrun, hread, hr⟩ := runAccesses_awaitWrite hacc hs
    exact runAccesses_cons hrun nofun (.writeUnanswered arb raw r rfl rfl hread hr)
  | row12 arb' raw' e hs hd he =>
    obtain ⟨arb, raw, r, hrun, hread, hr⟩ := runAccesses_awaitWrite hacc hs
    have hwr := hregs.wrAfter hs
    rw [readReqId_of_wrIssued hwr] at he
    exact runAccesses_cons hrun nofun (.confirmed arb raw r arb' raw' rfl hwr hread hr ⟨e, hd, he⟩)
  | row13 arb' raw' e hs hd he =>
    obtain ⟨arb, raw, r, hrun, hread, hr⟩ := runAccesses_awaitWrite hacc hs
    rw [readReqId_of_wrIssued (hregs.wrAfter hs)] at he
    refine runAccesses_cons hrun nofun (.writeRejected arb raw r arb' raw' rfl (.inr rfl) hread hr ?_)
    rintro ⟨e', hd', he'⟩
    cases hd.symm.trans hd'
    exact he he'
  | row14 arb' raw' f hs hd =>
    obtain ⟨arb, raw, r, hrun, hread, hr⟩ := runAccesses_awaitWrite hacc hs
    exact runAccesses_cons hrun nofun (.writeRejected arb raw r arb' raw' rfl (.inl rfl) hread hr
      fun ⟨_, hd', _⟩ => nomatch hd.symm.trans hd')
  | row15 arb' raw' c a hs hd =>
    obtain ⟨arb, raw, r, hrun, hread, hr⟩ := runAccesses_awaitWrite hacc hs
    exact runAccesses_cons hrun nofun (.writeRejected arb raw r arb' raw' rfl (.inl rfl) hread hr
      fun ⟨_, hd', _⟩ => nomatch hd.symm.trans hd')

/-! ## The block's invariant -/

theorem blockInv_reset (s : State) : BlockInv s.clearRegs.markReset := ⟨regsInv_reset s, .idle rfl⟩

/-- The invariant reads neither unit FC's output nor the inputs to come. -/
theorem blockInv_update {s : State} (h : BlockInv s) (f : Option FcResult) (ins : List Input) :
    BlockInv { s with fcOut := f, inputs := ins } :=
  ⟨regsInv_congr h.regs rfl rfl rfl rfl rfl rfl rfl rfl, runAccesses_congr s.reason f s.trace ins h.accesses⟩

/-- Every row keeps the block's invariant. -/
theorem exec_blockInv {i : Instr} {s t : State} (hinv : BlockInv s) (h : exec i s = .next t) : BlockInv t := by
  obtain ⟨r, -, rfl⟩ | ⟨-, rfl⟩ | hst := exec_next_cases h
  · exact blockInv_update hinv (some r) s.inputs
  · exact blockInv_reset s
  · exact ⟨tableStep_regsInv hinv.regs hst, tableStep_runAccesses hinv hst⟩

/-- While CUR_VALID is 1, the run's record has the read reply whose fields the registers hold (R19, R40). -/
theorem blockInv_readReply_received {s : State} (h : BlockInv s) (hcur : s.curValid = true) :
    ∃ arb raw, .received arb raw ∈ runTrace s.trace ∧ s.readReplyFrame arb raw := by
  obtain ⟨hregs, hacc⟩ := h
  have hbefore := hregs.curBefore
  generalize runTrace s.trace = l at hacc ⊢
  cases hacc with
  | idle hs | reading hs => simp_all
  | readNotSent _ _ hc | readUnanswered _ _ hc | readRejected _ _ _ _ hc => simp_all
  | read arb raw _ hread | writing arb raw _ _ hread | declined arb raw _ _ hread | confirmed arb raw _ _ _ _ _ hread
  | outOfRange arb raw _ _ hread | writeNotSent arb raw _ _ _ hread | writeUnanswered arb raw _ _ _ hread
  | writeRejected arb raw _ _ _ _ _ hread => exact ⟨arb, raw, by simp, hread⟩

/-- A write request leaves the remote identifier unknown, whatever came before it (R99). -/
@[simp] theorem writeUnsettled_cons_writeSent (m : Byte) (x : Arb) (s : State) (r : Byte) (tx : TxResult)
    (older : List BusEvent) : writeUnsettled m x (s.writeSent r tx :: older) = true :=
  writeUnsettled_writeSent ..

/-- A frame that does not confirm REQ_ID settles no write request for it (R75, R99). -/
theorem settles_writeSent_eq_false {s : State} {arb : Arb} {raw : List Byte} {r : Byte}
    (hnot : ¬ s.confirmingFrame arb raw) (hr : s.reqId = some r) (tx : TxResult) (older : List BusEvent) :
    settles s.cfgIdMask s.cfgArbId arb raw (s.writeSent r tx :: older) = false :=
  Bool.eq_false_iff.2 fun h => hnot ⟨r, (settles_writeSent_iff r tx older).1 h, hr⟩

/-- An aborted run that had issued its write request ends, after that request, in no reply or in a frame that confirms
nothing (R76, R99). -/
theorem blockInv_abortedWrite {s : State} (h : BlockInv s) (hs : s.state = .aborted) (hw : s.wrIssued = true) :
    ∃ arb raw r, s.readReplyFrame arb raw ∧ s.reqId = some r ∧
      (runTrace s.trace = [.noReply, s.writeSent r .ok, .received arb raw, s.readSent .ok] ∨
        ∃ arb' raw', ¬ s.confirmingFrame arb' raw' ∧
          runTrace s.trace = [.received arb' raw', s.writeSent r .ok, .received arb raw, s.readSent .ok]) := by
  obtain ⟨hregs, hacc⟩ := h
  have hcur := hregs.wrNeedsCur hw
  have hunsent := hregs.errUnsent
  generalize runTrace s.trace = l at hacc ⊢
  cases hacc with
  | writeUnanswered arb raw r _ _ hread hr => exact ⟨arb, raw, r, hread, hr, .inl rfl⟩
  | writeRejected arb raw r arb' raw' _ _ hread hr hnot =>
    exact ⟨arb, raw, r, hread, hr, .inr ⟨arb', raw', hnot, rfl⟩⟩
  | _ => simp_all

end Sys2Proof.Machine
end

section
/-! PROOFS. The obligations of the state: reset, what rows write and read, and the block's invariant. -/

namespace Sys2Proof.Machine

/-- Settles O1: the registers of `State.reset`, field by field. -/
theorem stateAfterReset : Obligations.StateAfterReset :=
  ⟨rfl, rfl, rfl, rfl, rfl, rfl, rfl, rfl, rfl, rfl⟩

/-- Settles O8, from the one result a row of unit FC has under a given mask. -/
theorem codecResultIsPure : Obligations.CodecResultIsPure := by
  intro i s s' hi hmask
  obtain ⟨r, hr⟩ := exec_codecRow hi s'.cfgIdMask
  exact ⟨r, hr s hmask, hr s' rfl⟩

/-- Settles O23: in R68's table only row 4 writes the read registers and only row 9 the write registers. -/
theorem dataRegisterWriters : Obligations.DataRegisterWriters := by
  intro i s t h hreset
  obtain ⟨r, -, rfl⟩ | ⟨hi, -⟩ | hst := exec_next_cases h
  · exact ⟨fun _ => ⟨rfl, rfl, rfl⟩, fun _ => ⟨rfl, rfl⟩⟩
  · exact absurd hi hreset
  · exact ⟨tableStep_readRegs hst, tableStep_writeRegs hst⟩

/-- Settles O24, by the three kinds of row. -/
theorem configurationNeverWritten : Obligations.ConfigurationNeverWritten := by
  intro i s t h
  obtain ⟨r, -, rfl⟩ | ⟨-, rfl⟩ | hst := exec_next_cases h
  · exact ⟨rfl, rfl, rfl, rfl⟩
  · exact ⟨rfl, rfl, rfl, rfl⟩
  · exact tableStep_config hst

/-- Settles O25: a recorded error means STATE is ABORTED, which no transition of R68's table leaves. -/
theorem errorKeptUntilReset : Obligations.ErrorKeptUntilReset := by
  intro i s t hinv herr h hreset
  have hs : s.state = .aborted := hinv.errAborted.1 herr
  obtain ⟨r, -, rfl⟩ | ⟨hi, -⟩ | hst := exec_next_cases h
  · exact ⟨rfl, rfl, hs⟩
  · exact absurd hi hreset
  · exact absurd hs (tableStep_not_aborted hst)

/-- Settles O27: the two states differ in the model's own fields alone, which no row reads. -/
theorem nothingElseIsRead : Obligations.NothingElseIsRead := by
  intro i s s' h
  rw [sameRegs_eq_update h]
  exact sameOutcome_exec_update i s _ _ _

/-- Settles O28: CUR_ID is byte 6 of the frame received, under the mask (R48). -/
theorem curIdWithinMask : Obligations.CurIdWithinMask := by
  intro s t arb raw h ht
  obtain ⟨_, hi, -⟩ | ⟨hi, -⟩ | hst := exec_next_cases h
  · cases hi
  · cases hi
  obtain ⟨c, a, hd, hc⟩ := tableStep_rxRead_haveCurrentId hst ht
  obtain ⟨p, -, -, -, -, rfl, -⟩ := decRply_eq_readOk hd
  refine ⟨_, hc, currentId_and_mask _ _, fun hmask => ?_⟩
  calc (currentId s.cfgIdMask p.b6).toNat ≤ s.cfgIdMask.toNat := currentId_toNat_le_mask _ _
    _ = 31 := by rw [hmask]; rfl

/-- Settles O31: a step takes an input, which the invariant does not read, and runs a row, which keeps it. -/
theorem blockInvariantKept : Obligations.BlockInvariantKept := by
  intro s t hinv h
  obtain rfl | ⟨_, rest, -, rfl⟩ | ⟨_, rest, i, -, -, hexec⟩ := step_next_cases h
  · exact hinv
  · exact blockInv_update hinv s.fcOut rest
  · exact exec_blockInv (blockInv_update hinv s.fcOut rest) hexec

/-- Settles O32: the registers are those RESET leaves, and the record is empty. -/
theorem blockInvariantAtReset : Obligations.BlockInvariantAtReset :=
  ⟨regsInv_congr (regsInv_reset State.reset) rfl rfl rfl rfl rfl rfl rfl rfl, .idle rfl⟩

/-- Settles O34: the record is empty. -/
theorem onlyLegalFramesAtReset : Obligations.OnlyLegalFramesAtReset := ⟨nofun, rfl⟩

/-- Settles O39: what follows the write request in the run's record settles nothing, and the frames received are the read
reply and at most one that does not confirm. -/
theorem unknownRemoteMeansUnconfirmedWrite : Obligations.UnknownRemoteMeansUnconfirmedWrite := by
  intro s hinv hs hw
  obtain ⟨older, htrace⟩ := runTrace_append s.trace
  obtain ⟨arb, raw, r, hread, hr, hrun | ⟨arb', raw', hnot, hrun⟩⟩ := blockInv_abortedWrite hinv hs hw
  · rw [hrun] at htrace ⊢
    have hunknown : s.remoteUnknown = true := by simp [State.remoteUnknown, htrace]
    refine ⟨hunknown, ⟨r, hr, by simp⟩, fun a b hmem => ?_⟩
    obtain ⟨rfl, rfl⟩ : a = arb ∧ b = raw := by simpa [State.writeSent, State.readSent] using hmem
    exact readReplyFrame_not_confirmingFrame hread
  · rw [hrun] at htrace ⊢
    have hunknown : s.remoteUnknown = true := by
      simp [State.remoteUnknown, htrace, settles_writeSent_eq_false hnot hr]
    refine ⟨hunknown, ⟨r, hr, by simp⟩, fun a b hmem => ?_⟩
    obtain ⟨rfl, rfl⟩ | ⟨rfl, rfl⟩ : (a = arb' ∧ b = raw') ∨ (a = arb ∧ b = raw) := by
      simpa [State.writeSent, State.readSent] using hmem
    · exact hnot
    · exact readReplyFrame_not_confirmingFrame hread

/-- Settles O40, from the read reply in the run's record. -/
theorem curIdOnlyFromValidReply : Obligations.CurIdOnlyFromValidReply := by
  intro s hinv hcur
  obtain ⟨arb, raw, hmem, c, a, hd, hc, ha⟩ := blockInv_readReply_received hinv hcur
  exact ⟨arb, raw, c, a, hmem, hd, (if_pos hcur).trans hc, (if_pos hcur).trans ha⟩

end Sys2Proof.Machine
end

section
/-! PROOFS. The obligations of the bus: which frames are handed over, the receive and what ends it, and the order of the
bytes of a read reply. -/

namespace Sys2Proof.Machine

/-! ## The bus record -/

/-- A write request for an identifier in 1..32 is a legal request (R54, R103). -/
theorem legalRequest_writeRequest {b : Byte} (h : 1 ≤ b.toNat ∧ b.toNat ≤ 32) : legalRequest (writeRequest b) = true := by
  obtain ⟨h1, h32⟩ := h
  simp [legalRequest, writeRequest, h1, h32]

/-- An entry put on the record keeps it legal, unless it is the send of another frame. -/
theorem onlyLegalSent_cons {s t : State} {e : BusEvent} (h : OnlyLegalSent s) (hcfg : t.cfgArbId = s.cfgArbId)
    (htrace : t.trace = e :: s.trace)
    (he : ∀ arb p tx, e = .sent arb p tx → arb = s.cfgArbId ∧ legalRequest p = true) : OnlyLegalSent t := by
  intro arb p tx hmem
  rw [htrace] at hmem
  rw [hcfg]
  obtain hnew | hold := List.mem_cons.1 hmem
  · exact he arb p tx hnew.symm
  · exact h arb p tx hold

/-- Of R68's table rows 1 and 2 send the read request, rows 9 and 10 a write request for an identifier in 1..32, and the
others nothing (R69, R73, R103). -/
theorem tableStep_onlyLegalSent {i : Instr} {s t : State} (h : OnlyLegalSent s) (hst : TableStep s i t) :
    OnlyLegalSent t := by
  cases hst with
  | row1 | row2 => exact onlyLegalSent_cons h rfl rfl (by rintro _ _ _ ⟨⟩; exact ⟨rfl, rfl⟩)
  | row9 _ _ h1 h32 | row10 _ _ h1 h32 =>
    have hlegal := legalRequest_writeRequest (newIdByte_range h1 h32)
    exact onlyLegalSent_cons h rfl rfl (by rintro _ _ _ ⟨⟩; exact ⟨rfl, hlegal⟩)
  | row7 | row8 => exact h
  | row3 | row4 | row5 | row6 | row11 | row12 | row13 | row14 | row15 => exact onlyLegalSent_cons h rfl rfl nofun

/-- Every row keeps to legal requests at CFG_ARB_ID: no row of unit FC and no RESET sends anything. -/
theorem exec_onlyLegalSent {i : Instr} {s t : State} (h : OnlyLegalSent s) (hexec : exec i s = .next t) :
    OnlyLegalSent t := by
  obtain ⟨_, -, rfl⟩ | ⟨-, rfl⟩ | hst := exec_next_cases hexec
  · exact h
  · exact onlyLegalSent_cons h rfl rfl nofun
  · exact tableStep_onlyLegalSent h hst

/-- Settles O33: a step takes an input, which sends nothing, and runs a row. -/
theorem onlyLegalFramesSent : Obligations.OnlyLegalFramesSent := by
  intro s t h hstep
  obtain rfl | ⟨_, rest, -, rfl⟩ | ⟨_, rest, i, -, -, hexec⟩ := step_next_cases hstep
  · exact h
  · exact h
  · exact exec_onlyLegalSent (s := { s with inputs := rest }) h hexec

/-- A run whose accesses include a write request received the read reply before it (R40). -/
theorem runAccesses_writeSent {s : State} {l : List BusEvent} (h : RunAccesses s l) {r : Byte} {tx : TxResult}
    (hw : s.writeSent r tx ∈ l) : ∃ arb raw, .received arb raw ∈ l ∧ s.readReplyFrame arb raw := by
  cases h with
  | idle | reading | readNotSent | readUnanswered | readRejected =>
    simp [State.writeSent, State.readSent] at hw
  | read arb raw _ hread | writing arb raw _ _ hread | declined arb raw _ _ hread | confirmed arb raw _ _ _ _ _ hread
  | outOfRange arb raw _ _ hread | writeNotSent arb raw _ _ _ hread | writeUnanswered arb raw _ _ _ hread
  | writeRejected arb raw _ _ _ _ _ hread => exact ⟨arb, raw, by simp, hread⟩

/-- Settles O37, from the shapes R40 gives a run's accesses. -/
theorem noWriteBeforeRead : Obligations.NoWriteBeforeRead :=
  fun _ _ _ hinv hw => runAccesses_writeSent hinv.accesses hw

/-! ## The receive -/

theorem pendingRecv_of_awaits {s : State} (h : s.state.awaits = true) : s.pendingRecv = some s.respTimeout := if_pos h

theorem pendingRecv_of_not_awaits {s : State} (h : s.state.awaits = false) : s.pendingRecv = none := by
  simp [State.pendingRecv, h]

theorem awaits_of_pendingRecv {s : State} (h : s.pendingRecv ≠ none) : s.state.awaits = true := by
  by_contra hs
  exact h (if_neg hs)

/-- The transitions of R68's table on RX or TIMEOUT start in an AWAIT state and end in no AWAIT state. -/
theorem tableStep_eventRow {i : Instr} {s t : State} (hi : isEventRow i = true) (hst : TableStep s i t) :
    s.state.awaits = true ∧ t.state.awaits = false := by
  cases hst with
  | row1 | row2 | row7 | row8 | row9 | row10 => cases hi
  | row3 hs | row4 _ _ _ _ hs | row5 _ _ _ hs | row6 _ _ _ hs | row11 hs | row12 _ _ _ hs | row13 _ _ _ hs
  | row14 _ _ _ hs | row15 _ _ _ _ hs => exact ⟨hs ▸ rfl, rfl⟩

theorem isCodecRow_of_isEventRow {i : Instr} (hi : isEventRow i = true) : isCodecRow i = false := by
  cases i with
  | rxRead | rxWrite | timeoutRead | timeoutWrite => rfl
  | _ => cases hi

/-- Settles O46: an event row runs only by a transition of R68's table, from an AWAIT state out of it. -/
theorem eventsOnlyWhileReceivePending : Obligations.EventsOnlyWhileReceivePending := by
  intro i s t hi h
  obtain ⟨_, hcodec, -⟩ | ⟨rfl, -⟩ | hst := exec_next_cases h
  · rw [isCodecRow_of_isEventRow hi] at hcodec
    cases hcodec
  · cases hi
  · obtain ⟨hs, ht⟩ := tableStep_eventRow hi hst
    exact ⟨pendingRecv_of_awaits hs, pendingRecv_of_not_awaits ht⟩

theorem awaits_cases {st : SeqState} (h : st.awaits = true) : st = .awaitReadReply ∨ st = .awaitWriteReply := by
  cases st with
  | awaitReadReply => exact .inl rfl
  | awaitWriteReply => exact .inr rfl
  | _ => cases h

/-- In an AWAIT state the ports' RX or TIMEOUT decodes to the event row that the state enables, whatever command stands
beside it (R80). -/
theorem decode_awaitedEvent {st : SeqState} {p : SeqPorts} (hst : st.awaits = true) (hreset : p.reset = 0)
    (hevent : p.rxEvent = 1 ∨ p.rxEvent = 2) :
    ∃ i, decode st (.seq p) = .instr i ∧ isEventRow i = true ∧ enabledIn st i = true := by
  have hpick : pickSeq st p = .event := by
    obtain h | h := hevent <;> simp [pickSeq, hreset, hst, h]
  have hdecode : decode st (.seq p) = decodeEvent st p := by simp only [decode, decodeSeq, hpick]
  rw [hdecode]
  obtain h | h := hevent
  · refine ⟨rxRow st p.rxArb p.rx.raw, by simp [decodeEvent, h], ?_⟩
    obtain rfl | rfl := awaits_cases hst <;> exact ⟨rfl, rfl⟩
  · refine ⟨timeoutRow st, by simp [decodeEvent, h], ?_⟩
    obtain rfl | rfl := awaits_cases hst <;> exact ⟨rfl, rfl⟩

/-- An event row completes in the state that enables it (R77). -/
theorem exec_eventRow_completes {i : Instr} {s : State} (hi : isEventRow i = true) (hen : enabledIn s.state i = true) :
    ∃ t, exec i s = .next t := by
  cases i with
  | timeoutRead | timeoutWrite => exact ⟨_, onlyIn_enabled (of_decide_eq_true hen)⟩
  | rxRead rxArb raw =>
    simp only [exec, execRxRead, onlyIn_enabled (of_decide_eq_true hen)]
    cases decRply s.cfgIdMask rxArb raw s.cfgArbId <;> exact ⟨_, rfl⟩
  | rxWrite rxArb raw =>
    simp only [exec, execRxWrite, onlyIn_enabled (of_decide_eq_true hen)]
    cases decRply s.cfgIdMask rxArb raw s.cfgArbId with
    | writeEcho e => by_cases hr : s.readReqId = some e <;> simp [hr]
    | invalid | readOk => exact ⟨_, rfl⟩
  | _ => cases hi

theorem step_of_decode {s : State} {x : Input} {rest : List Input} {i : Instr} (hin : s.inputs = x :: rest)
    (hd : decode s.state x = .instr i) : step s = exec i { s with inputs := rest } := by
  rw [step, takeInput_cons hin, hd]

/-- Settles O45: the event decodes to the row the state enables, which completes and ends the receive. -/
theorem oneAnswerEndsTheWait : Obligations.OneAnswerEndsTheWait := by
  intro s p rest hpending hin hreset hevent
  obtain ⟨i, hd, hi, hen⟩ := decode_awaitedEvent (awaits_of_pendingRecv hpending) hreset hevent
  obtain ⟨t, ht⟩ := exec_eventRow_completes (s := { s with inputs := rest }) hi hen
  obtain ⟨-, hended⟩ := eventsOnlyWhileReceivePending i _ t hi ht
  obtain ⟨-, -, -, hinputs⟩ := configurationNeverWritten i _ t ht
  exact ⟨t, (step_of_decode hin hd).trans ht, hended, hinputs⟩

/-! ## The read reply's fields -/

/-- The reply address is little-endian in bytes 6 and 7 (R30, R49). -/
theorem replyAddress_toNat (b6 b7 : Byte) : (replyAddress b6 b7).toNat = 256 * b7.toNat + b6.toNat := by
  have h6 : b6.toNat < 2 ^ 8 := b6.isLt
  have h7 : b7.toNat < 2 ^ 8 := b7.isLt
  calc (replyAddress b6 b7).toNat = b7.toNat <<< 8 ||| b6.toNat := by
        rw [replyAddress, BitVec.toNat_or, BitVec.toNat_shiftLeft, BitVec.toNat_setWidth, BitVec.toNat_setWidth,
          Nat.mod_eq_of_lt (by omega), Nat.mod_eq_of_lt (by omega), Nat.mod_eq_of_lt (by omega)]
    _ = b7.toNat <<< 8 + b6.toNat := (Nat.shiftLeft_add_eq_or_of_lt h6 _).symm
    _ = 256 * b7.toNat + b6.toNat := by omega

theorem currentId_toNat_le_byte (m b : Byte) : (currentId m b).toNat ≤ b.toNat := by
  rw [currentId, BitVec.toNat_and]
  exact Nat.and_le_left

/-- Settles O10: the row shows `currentId` and `replyAddress` of bytes 6 and 7. -/
theorem replyAddressLittleEndian : Obligations.ReplyAddressLittleEndian := by
  intro s arb b1 b3 b4 b5 b6 b7
  have hdecode : decRply s.cfgIdMask arb [0x79, b1, 0x01, b3, b4, b5, b6, b7] arb =
      .readOk (currentId s.cfgIdMask b6) (replyAddress b6 b7) := by
    simp [decRply, Payload.ofBytes?, decodePayload]
  refine ⟨currentId s.cfgIdMask b6, replyAddress b6 b7, ?_, replyAddress_toNat b6 b7,
    currentId_toNat_le_byte _ _, currentId_toNat_le_mask _ _⟩
  rw [exec, execDecRplyReadOk, showReply, hdecode]
  rfl

end Sys2Proof.Machine
end

section
/-! PROOFS. The decoder's facts: which row a frame, a request word or a lone port code names. -/

namespace Sys2Proof

/-! ## Received frames (R51) -/

/-- A frame that is no payload is no reply (R51). -/
theorem isReply_eq_false_of_ofBytes?_eq_none {raw : List Byte} (h : Payload.ofBytes? raw = none) (dir : Byte)
    (a e : Arb) : isReply dir a raw e = false := by
  rw [← Bool.not_eq_true, isReply_iff]
  rintro ⟨p, hp, -⟩
  cases h.symm.trans hp

/-- No frame has both direction flags (R6, R51). -/
theorem isReply_writeFlag_eq_false {a e : Arb} {raw : List Byte} (h : isReply Config.readFlag a raw e = true) :
    isReply Config.writeFlag a raw e = false := by
  obtain ⟨p, hp, -, -, hread⟩ := (isReply_iff _ _ _ _).1 h
  rw [← Bool.not_eq_true, isReply_iff]
  rintro ⟨q, hq, -, -, hwrite⟩
  cases hp.symm.trans hq
  exact absurd (hread.symm.trans hwrite) (by decide)

/-- The kind of DEC_RPLY's outcome by the byte tests of R51, under every mask parameter (R60, R66). -/
theorem Machine.kind_decRply (m : Byte) (a : Arb) (raw : List Byte) (e : Arb) :
    (Machine.decRply m a raw e).kind =
      if isReply Config.readFlag a raw e then 1 else if isReply Config.writeFlag a raw e then 2 else 0 := by
  cases hp : Payload.ofBytes? raw with
  | none => simp [decRply, hp, isReply_eq_false_of_ofBytes?_eq_none hp, ReplyOutcome.kind]
  | some p =>
    cases Payload.ofBytes?_eq_some hp
    have htests (dir : Byte) : isReply dir a p.bytes e = true ↔ a = e ∧ p.b0 = Config.cmdCode ∧ p.b2 = dir := by
      simp [isReply_iff]
    simp only [htests, decRply_bytes, decodePayload]
    by_cases harb : a = e
    · by_cases hcmd : p.b0 = Config.cmdCode
      · simp only [harb, hcmd, ne_eq, not_true_eq_false, if_false, true_and]
        split
        · rfl
        · split <;> rfl
      · simp only [hcmd, harb, ne_eq, not_true_eq_false, not_false_eq_true, if_false, if_true, false_and, and_false]
        rfl
    · simp only [harb, ne_eq, not_false_eq_true, if_false, if_true, false_and]
      rfl

/-- A frame shown at the decoder's ports decodes to the row it falls in (R67). -/
theorem decode_rply_ofRaw (st : SeqState) (a : Arb) (raw : List Byte) (e : Arb) :
    decode st (.rply a (RxFrame.ofRaw raw) e) = .instr (decodeReply a raw e) := by
  rw [decode, RxFrame.raw_ofRaw]

/-! ## Request words (R45) -/

/-- A word decodes to the encoder operation that emits it. -/
theorem decode_req_eq_instr_iff (st : SeqState) (w : PWord) (i : Instr) :
    decode st (.req w) = .instr i ↔ decodeRequest w = some i := by
  rw [decode]
  cases decodeRequest w <;> simp

theorem rowEncRd_accepts_iff (w : PWord) : rowEncRd.accepts w = true ↔ w = 0x0000000000010079 := by
  rw [MaskMatch.accepts, decide_eq_true_iff]
  change w &&& BitVec.allOnes 64 = 0x0000000000010079 ↔ _
  rw [BitVec.and_allOnes]

/-- A write request's word decodes to ENC_WR of its identifier byte (R45, R51). -/
theorem decodeRequest_writeWord (b : Byte) :
    decodeRequest (placed b 7 ||| 0x0000000000000079) = some (.encWr b.toNat) := by
  have hrd : ¬ rowEncRd.accepts (placed b 7 ||| 0x0000000000000079) = true := by
    rw [rowEncRd_accepts_iff, writeWord_eq]
    intro h
    have h2 := congrArg (byteAt · 2) h
    rw [byteAt_word_2] at h2
    exact absurd h2 (by decide : Config.writeFlag ≠ byteAt 0x0000000000010079 2)
  have hwr : rowEncWr.accepts (placed b 7 ||| 0x0000000000000079) = true := by
    have h := Laws.TableWord.encWr b.toInt rfl
    simp only [Laws.TableWord.carries, encode, BitVec.ofInt_toInt] at h
    exact decide_eq_true h
  rw [decodeRequest, if_neg hrd, if_pos hwr, writeWord_eq, byteAt_word_7]

/-- `new_id` survives its port (R10). -/
theorem toNat_ofInt_of_fitsNewId {n : Int} (h : fitsNewId n = true) : ((BitVec.ofInt 8 n).toNat : Int) = n := by
  simp only [fitsNewId, Bool.and_eq_true, decide_eq_true_eq] at h
  rw [BitVec.toNat_ofInt]
  omega

/-! ## The sequencer's ports (R80) -/

@[simp] theorem TxResult.ofBit_bit (tx : TxResult) : TxResult.ofBit tx.bit = tx := by
  cases tx <;> rfl

/-- A command alone at the ports is what they decode to, in every state. -/
theorem decode_cmd_alone (st : SeqState) {p : SeqPorts} (hreset : p.reset = 0) (hevent : p.rxEvent = 0)
    (hcmd : p.cmd ≠ 0) : decode st (.seq p) = decodeCmd p := by
  have hpick : pickSeq st p = .cmd := by simp_all [pickSeq]
  simp only [decode, decodeSeq, hpick]

/-- An event alone at the ports is what they decode to, in every state. -/
theorem decode_event_alone (st : SeqState) {p : SeqPorts} (hreset : p.reset = 0) (hcmd : p.cmd = 0)
    (hevent : p.rxEvent ≠ 0) : decode st (.seq p) = decodeEvent st p := by
  have hpick : pickSeq st p = .event := by simp_all [pickSeq]
  simp only [decode, decodeSeq, hpick]

/-! ## Rows that decoding can name -/

/-- What decoding guarantees of a row it names: its operands fall in it, and the state tells it (R51). -/
def Instr.nameable (st : SeqState) (i : Instr) : Prop := i.wellFormed = true ∧ i.toldIn st = true

theorem decodeReply_nameable (st : SeqState) (a : Arb) (raw : List Byte) (e : Arb) :
    (decodeReply a raw e).nameable st := by
  rw [decodeReply_eq]
  split
  · rename_i hread
    exact ⟨hread, rfl⟩
  · split
    · rename_i hwrite
      exact ⟨hwrite, rfl⟩
    · rename_i hread hwrite
      exact ⟨by rw [Instr.wellFormed, Bool.eq_false_iff.2 hread, Bool.eq_false_iff.2 hwrite]; rfl, rfl⟩

theorem rxRow_nameable (st : SeqState) (a : Arb) (raw : List Byte) : (rxRow st a raw).nameable st := by
  unfold rxRow
  split <;> exact ⟨rfl, decide_eq_true ‹_›⟩

theorem timeoutRow_nameable (st : SeqState) : (timeoutRow st).nameable st := by
  unfold timeoutRow
  split <;> exact ⟨rfl, decide_eq_true ‹_›⟩

theorem decodeOperation_nameable (st : SeqState) (o : Operation) : (decodeOperation st o).nameable st := by
  cases o with
  | decRply a raw e => exact decodeReply_nameable st a raw e
  | rx a raw => exact rxRow_nameable st a raw
  | timeout => exact timeoutRow_nameable st
  | encRd | encWr | start | proceedWrite | declineWrite | reset => exact ⟨rfl, rfl⟩

theorem decodeRequest_nameable {w : PWord} {i : Instr} (st : SeqState) (h : decodeRequest w = some i) :
    i.nameable st := by
  unfold decodeRequest at h
  split at h
  · cases h; exact ⟨rfl, rfl⟩
  · split at h
    · cases h; exact ⟨rfl, rfl⟩
    · cases h

theorem decodeCmd_nameable {p : SeqPorts} {i : Instr} (st : SeqState) (h : decodeCmd p = .instr i) : i.nameable st := by
  unfold decodeCmd at h
  split at h
  · cases h; exact ⟨rfl, rfl⟩
  · split at h
    · cases h; exact ⟨rfl, rfl⟩
    · split at h
      · cases h; exact ⟨rfl, rfl⟩
      · cases h

theorem decodeEvent_nameable {st : SeqState} {p : SeqPorts} {i : Instr} (h : decodeEvent st p = .instr i) :
    i.nameable st := by
  unfold decodeEvent at h
  split at h
  · cases h; exact rxRow_nameable st _ _
  · split at h
    · cases h; exact timeoutRow_nameable st
    · split at h <;> cases h

theorem decodeSeq_nameable {st : SeqState} {p : SeqPorts} {i : Instr} (h : decodeSeq st p = .instr i) :
    i.nameable st := by
  unfold decodeSeq at h
  split at h
  · cases h; exact ⟨rfl, rfl⟩
  · exact decodeCmd_nameable st h
  · exact decodeEvent_nameable h
  · cases h

/-! ## Bare words of the table -/

/-- The input of a bare word asks for the same in every state (log entry 2). -/
theorem decode_tableInput {nbits w : Nat} {x : Input} (h : tableInput nbits w = some x) (st st' : SeqState) :
    decode st x = decode st' x := by
  unfold tableInput at h
  split at h
  · split at h
    · split at h <;> cases h <;> rfl
    · cases h
  · split at h
    · rename_i hw
      obtain ⟨-, h1, h3⟩ := hw
      cases h
      have hcmd : BitVec.ofNat 2 w ≠ 0 := by interval_cases w <;> decide
      exact (decode_cmd_alone st rfl rfl hcmd).trans (decode_cmd_alone st' rfl rfl hcmd).symm
    · cases h

/-- A bare word names the row of its input (log entry 2). -/
theorem decodeTableWord_eq_some {nbits w : Nat} {i : Instr} (h : decodeTableWord nbits w = some i) :
    ∃ x, tableInput nbits w = some x ∧ ∀ st, decode st x = .instr i := by
  unfold decodeTableWord at h
  split at h
  · cases h
  · rename_i x hx
    refine ⟨x, hx, fun st => ?_⟩
    rw [decode_tableInput hx st .idle]
    split at h
    · rename_i hd
      cases h
      exact hd
    · cases h
    · cases h

end Sys2Proof
end

section
/-! PROOFS. The obligations of the encoding (30_encoding.md). -/

namespace Sys2Proof.Machine

/-- Settles O50, row by row: a frame comes back from the ports and falls in its row by the byte tests, `new_id` survives
its port, and a lone command or event is what the ports decode to. -/
theorem decodeEncodeRoundTrip : Obligations.DecodeEncodeRoundTrip := by
  intro st i hwf hfit htold
  cases i with
  | encRd => rfl
  | encWr n =>
    rw [encode, decode_req_eq_instr_iff, decodeRequest_writeWord, toNat_ofInt_of_fitsNewId hfit]
  | decRplyReadOk a raw e =>
    have hread : isReply Config.readFlag a raw e = true := hwf
    rw [encode, decode_rply_ofRaw, decodeReply_eq, if_pos hread]
  | decRplyWriteEcho a raw e =>
    have hwrite : isReply Config.writeFlag a raw e = true := hwf
    have hread : ¬ isReply Config.readFlag a raw e = true := fun h => by
      cases (isReply_writeFlag_eq_false h).symm.trans hwrite
    rw [encode, decode_rply_ofRaw, decodeReply_eq, if_neg hread, if_pos hwrite]
  | decRplyInvalid a raw e =>
    simp only [Instr.wellFormed, Bool.and_eq_true, Bool.not_eq_true'] at hwf
    obtain ⟨hread, hwrite⟩ := hwf
    rw [encode, decode_rply_ofRaw, decodeReply_eq, hread, hwrite]
    rfl
  | start tx =>
    calc decode st (encode (.start tx)) = .instr (.start (TxResult.ofBit tx.bit)) :=
          decode_cmd_alone st rfl rfl (by decide : (1 : BitVec 2) ≠ 0)
      _ = .instr (.start tx) := by rw [TxResult.ofBit_bit]
  | proceedWrite n tx =>
    calc decode st (encode (.proceedWrite n tx)) =
          .instr (.proceedWrite (BitVec.ofInt 8 n).toNat (TxResult.ofBit tx.bit)) :=
          decode_cmd_alone st rfl rfl (by decide : (2 : BitVec 2) ≠ 0)
      _ = .instr (.proceedWrite n tx) := by rw [toNat_ofInt_of_fitsNewId hfit, TxResult.ofBit_bit]
  | declineWrite => exact decode_cmd_alone st rfl rfl (by decide)
  | rxRead a raw =>
    calc decode st (encode (.rxRead a raw)) = .instr (rxRow st a (RxFrame.ofRaw raw).raw) :=
          decode_event_alone st rfl rfl (by decide : (1 : BitVec 2) ≠ 0)
      _ = .instr (.rxRead a raw) := by rw [RxFrame.raw_ofRaw, rxRow, if_neg (of_decide_eq_true htold)]
  | rxWrite a raw =>
    calc decode st (encode (.rxWrite a raw)) = .instr (rxRow st a (RxFrame.ofRaw raw).raw) :=
          decode_event_alone st rfl rfl (by decide : (1 : BitVec 2) ≠ 0)
      _ = .instr (.rxWrite a raw) := by rw [RxFrame.raw_ofRaw, rxRow, if_pos (of_decide_eq_true htold)]
  | timeoutRead =>
    calc decode st (encode .timeoutRead) = .instr (timeoutRow st) :=
          decode_event_alone st rfl rfl (by decide : (2 : BitVec 2) ≠ 0)
      _ = .instr .timeoutRead := by rw [timeoutRow, if_neg (of_decide_eq_true htold)]
  | timeoutWrite =>
    calc decode st (encode .timeoutWrite) = .instr (timeoutRow st) :=
          decode_event_alone st rfl rfl (by decide : (2 : BitVec 2) ≠ 0)
      _ = .instr .timeoutWrite := by rw [timeoutRow, if_pos (of_decide_eq_true htold)]
  | reset => rfl

/-- Settles O9: row and outcome kind are both functions of the byte tests of R51. -/
theorem maskedRowIsOutcomeKind : Obligations.MaskedRowIsOutcomeKind := by
  intro m a raw e
  rw [decodeReply_eq, kind_decRply]
  cases isReply Config.readFlag a raw e with
  | true => simp
  | false => cases isReply Config.writeFlag a raw e <;> simp

/-- Settles O49: the placed input decodes, whatever the state, to the row the word names. -/
theorem placedWordRuns : Obligations.PlacedWordRuns := by
  intro s nbits w i h
  obtain ⟨x, hx, hd⟩ := decodeTableWord_eq_some h
  rw [State.withFetchWord, hx]
  exact step_of_decode (s.giveFirst_inputs x) (hd _)

/-- Settles O51, by the kind of input. -/
theorem decodedRowsWellFormed : Obligations.DecodedRowsWellFormed := by
  intro st x i h
  cases x with
  | op o => cases h; exact decodeOperation_nameable st o
  | req w => exact decodeRequest_nameable st ((decode_req_eq_instr_iff st w i).1 h)
  | rply a rx e => cases h; exact decodeReply_nameable st a rx.raw e
  | seq p => exact decodeSeq_nameable h
  | ownFrame a p => cases h; exact rxRow_nameable st a p.bytes
  | otherUser access => cases h

/-- Settles O52: each word evaluates to its row. -/
theorem specWordsDecode : Obligations.SpecWordsDecode := ⟨rfl, rfl, rfl, rfl, rfl⟩

end Sys2Proof.Machine
end

section
/-! PROOFS. Unit FC's operations one by one (40_codec.md): what a row shows, what the ports show, and which rows complete. -/

namespace Sys2Proof.Machine

/-! ## ENC_WR (R59) -/

theorem exec_encWr_inRange {n : Int} (h1 : 1 ≤ n) (h32 : n ≤ 32) (s : State) :
    exec (.encWr n) s = .next (s.setFcOut (.payload (writeRequest (newIdByte n)))) := by
  rw [exec, execEncWr, encodeWrite_inRange h1 h32]

theorem exec_encWr_outOfRange {n : Int} (h : n < 1 ∨ 32 < n) (s : State) :
    exec (.encWr n) s = .next (s.setFcOut (.invalidArgument n)) := by
  rw [exec, execEncWr, encodeWrite_outOfRange h]

/-- The word of a write request: the identifier byte at the top, CMD_CODE at the bottom (R45, R59). -/
theorem word_writeRequest (b : Byte) :
    (writeRequest b).word = (b.zeroExtend 64 <<< 56) ||| 0x0000000000000079 :=
  (writeWord_eq b).symm

/-- A byte's value is its own encoding: nothing is truncated (R47). -/
@[simp] theorem newIdByte_toNat_cast (b : Byte) : newIdByte (b.toNat : Int) = b := by
  rw [newIdByte, BitVec.ofInt_natCast, BitVec.ofNat_toNat, BitVec.setWidth_eq]

/-- An identifier in 1..32 is the same word whether widened from its byte or from the integer (R47, R59). -/
theorem zeroExtend_newIdByte {n : Int} (h1 : 1 ≤ n) (h32 : n ≤ 32) :
    (newIdByte n).zeroExtend 64 = BitVec.ofInt 64 n := by
  calc (newIdByte n).zeroExtend 64 = BitVec.ofInt 64 ((newIdByte n).toNat : Int) := by
        rw [BitVec.ofInt_natCast, BitVec.ofNat_toNat]
    _ = BitVec.ofInt 64 n := by rw [newIdByte_toNat h1 h32]

/-! ## DEC_RPLY (R60 to R63) -/

/-- The three rows of DEC_RPLY are one operation: the row a frame falls in shows the outcome on that frame (R51, R60). -/
theorem exec_decodeReply (a : Arb) (raw : List Byte) (e : Arb) (s : State) :
    exec (decodeReply a raw e) s = .next (showReply a raw e s) := by
  rw [decodeReply_eq]
  split
  · rfl
  · split <;> rfl

/-- A payload shows the outcome of the stages past the length (R60). -/
theorem showReply_of_decodePayload {a e : Arb} {p : Payload} {s : State} {o : ReplyOutcome}
    (h : decodePayload s.cfgIdMask a p e = o) : showReply a p.bytes e s = s.setFcOut (.outcome o) := by
  rw [showReply, decRply_bytes, h]

theorem decodePayload_readReply {m : Byte} {a : Arb} {p : Payload} (hcmd : p.b0 = Config.cmdCode)
    (hread : p.b2 = Config.readFlag) :
    decodePayload m a p a = .readOk (currentId m p.b6) (replyAddress p.b6 p.b7) := by
  simp [decodePayload, hcmd, hread]

theorem decodePayload_writeReply {m : Byte} {a : Arb} {p : Payload} (hcmd : p.b0 = Config.cmdCode)
    (hwrite : p.b2 = Config.writeFlag) : decodePayload m a p a = .writeEcho p.b7 := by
  simp [decodePayload, hcmd, hwrite]

/-- Eight bytes that fail a test past the length are Invalid by the first test failed (R60, R63, D9). -/
theorem decodePayload_invalid {m : Byte} {a e : Arb} {p : Payload}
    (h : a ≠ e ∨ p.b0 ≠ Config.cmdCode ∨ (p.b2 ≠ Config.readFlag ∧ p.b2 ≠ Config.writeFlag)) :
    decodePayload m a p e = .invalid
      (if a ≠ e then .badArbitrationId else if p.b0 ≠ Config.cmdCode then .badCommandCode else .badDirection) := by
  unfold decodePayload
  by_cases harb : a = e
  · by_cases hcmd : p.b0 = Config.cmdCode
    · obtain ⟨hread, hwrite⟩ := (h.resolve_left (not_not_intro harb)).resolve_left (not_not_intro hcmd)
      simp only [harb, hcmd, hread, hwrite, ne_eq, not_true_eq_false, if_false]
    · simp only [harb, hcmd, ne_eq, not_true_eq_false, not_false_eq_true, if_false, if_true]
  · simp only [harb, ne_eq, not_false_eq_true, if_true]

/-! ## Unit FC's ports (R67) -/

/-- ENC_WR on what its port carries is the range test on the byte itself (R59, R65). -/
theorem encodeWrite_toNat (b : Byte) :
    encodeWrite b.toNat = if 1 ≤ b ∧ b ≤ 32 then some (writeRequest b) else none := by
  have hrange : (1 ≤ b ∧ b ≤ 32) ↔ 1 ≤ b.toNat ∧ b.toNat ≤ 32 := Iff.rfl
  by_cases h : 1 ≤ b ∧ b ≤ 32
  · obtain ⟨h1, h32⟩ := hrange.1 h
    rw [if_pos h, encodeWrite_inRange (by omega) (by omega), newIdByte_toNat_cast]
  · rw [if_neg h]
    exact encodeWrite_outOfRange (by rw [hrange] at h; omega)

/-- Bytes 7 and 6 of a word stand together as the reply address (R49). -/
theorem extractLsb'_eq_replyAddress (w : PWord) : w.extractLsb' 48 16 = replyAddress (byteAt w 6) (byteAt w 7) := by
  apply BitVec.eq_of_getLsbD_eq
  intro k hk
  by_cases hlow : k < 8
  · simp [replyAddress, byteAt, hk, hlow]
  · have hhigh : 48 + k = 56 + (k - 8) := by omega
    have h8 : k - 8 < 8 := by omega
    simp [replyAddress, byteAt, hk, hlow, hhigh, h8]

/-- The tests at the decoder's ports are DEC_RPLY on the byte sequence they show (R67). -/
theorem fcOutcome_eq_decRply (m : Byte) (p : FcPortsIn) : fcOutcome m p = decRply m p.rxArb p.rx.raw p.expArb := by
  unfold fcOutcome
  by_cases hlen : p.rx.rxLen = 8
  · rw [if_neg (not_not_intro hlen), RxFrame.raw_of_eight hlen, decRply_bytes, extractLsb'_eq_replyAddress]
    rfl
  · rw [if_pos hlen, decRply_badLength (RxFrame.raw_length_ne hlen)]

/-! ## Bytes past `rx_len` (R67, R80) -/

@[refl] theorem sameOutcome_refl (o : Host.Outcome State Fault Refusal) : sameOutcome o o := by
  cases o <;> exact rfl

/-- Event RX makes the same of the registers for frames with one outcome: the frame itself goes into the record alone
(R71, R75). -/
theorem sameOutcome_exec_rxRow {raw raw' : List Byte} {a : Arb} {s : State}
    (h : decRply s.cfgIdMask a raw s.cfgArbId = decRply s.cfgIdMask a raw' s.cfgArbId) (st : SeqState) :
    sameOutcome (exec (rxRow st a raw) s) (exec (rxRow st a raw') s) := by
  unfold rxRow
  split
  · refine sameOutcome_onlyIn rfl ?_
    rw [h]
    cases decRply s.cfgIdMask a raw' s.cfgArbId with
    | writeEcho e =>
      dsimp only
      split <;> exact rfl
    | invalid | readOk => exact rfl
  · refine sameOutcome_onlyIn rfl ?_
    rw [h]
    cases decRply s.cfgIdMask a raw' s.cfgArbId <;> exact rfl

/-- Only event RX takes the frame from the sequencer's ports: with another frame there, the ports ask for the same, or for
RX with the two frames (R80). -/
theorem decodeSeq_rx_cases (st : SeqState) (p : SeqPorts) (f g : RxFrame) :
    decodeSeq st { p with rx := f } = decodeSeq st { p with rx := g } ∨
      (decodeSeq st { p with rx := f } = .instr (rxRow st p.rxArb f.raw) ∧
        decodeSeq st { p with rx := g } = .instr (rxRow st p.rxArb g.raw)) := by
  have hpick (h : RxFrame) : pickSeq st { p with rx := h } = pickSeq st p := rfl
  simp only [decodeSeq, hpick]
  cases pickSeq st p with
  | reset | cmd | quiet => exact .inl rfl
  | event =>
    by_cases hrx : p.rxEvent = 1
    · exact .inr ⟨if_pos hrx, if_pos hrx⟩
    · exact .inl ((if_neg hrx).trans (if_neg hrx).symm)

/-- A step sees of an input only what it decodes to. -/
theorem step_congr_decode {s : State} {x y : Input} (h : decode s.state x = decode s.state y) (rest : List Input) :
    step { s with inputs := x :: rest } = step { s with inputs := y :: rest } := by
  simp only [step, State.takeInput, h]
  cases decode s.state y <;> rfl

theorem step_cons_of_decode {s : State} {x : Input} {i : Instr} (h : decode s.state x = .instr i) (rest : List Input) :
    step { s with inputs := x :: rest } = exec i { s with inputs := rest } :=
  step_of_decode rfl h

/-! ## Which rows complete (R68, R77) -/

theorem exec_codecRow_completes {i : Instr} (hi : isCodecRow i = true) (s : State) : ∃ t, exec i s = .next t :=
  let ⟨_, hr⟩ := exec_codecRow hi s.cfgIdMask
  ⟨_, hr s rfl⟩

/-- Every row completes in the states that enable it (R64, R77). -/
theorem exec_completes {i : Instr} {s : State} (hen : enabledIn s.state i = true) : ∃ t, exec i s = .next t := by
  cases i with
  | encRd | encWr _ | decRplyReadOk _ _ _ | decRplyWriteEcho _ _ _ | decRplyInvalid _ _ _ =>
    exact exec_codecRow_completes rfl s
  | rxRead _ _ | rxWrite _ _ | timeoutRead | timeoutWrite => exact exec_eventRow_completes rfl hen
  | start tx =>
    simp only [exec, execStart, onlyIn_enabled (of_decide_eq_true hen)]
    cases tx <;> exact ⟨_, rfl⟩
  | proceedWrite n tx =>
    simp only [exec, execProceedWrite, onlyIn_enabled (of_decide_eq_true hen)]
    cases encodeWrite n with
    | none => exact ⟨_, rfl⟩
    | some p => cases tx <;> exact ⟨_, rfl⟩
  | declineWrite => exact ⟨_, onlyIn_enabled (of_decide_eq_true hen)⟩
  | reset => exact ⟨_, rfl⟩

/-- A row that the state does not enable is refused under its own name (R77). -/
theorem exec_refused {i : Instr} {s : State} (hen : enabledIn s.state i = false) :
    exec i s = .refused (.notEnabled (mnemonic i) s.state) := by
  cases i with
  | encRd | encWr _ | decRplyReadOk _ _ _ | decRplyWriteEcho _ _ _ | decRplyInvalid _ _ _ | reset => cases hen
  | start _ | proceedWrite _ _ | declineWrite | rxRead _ _ | rxWrite _ _ | timeoutRead | timeoutWrite =>
    exact onlyIn_refused (of_decide_eq_false hen)

end Sys2Proof.Machine
end

section
/-! PROOFS. The obligations of unit FC (40_codec.md). -/

namespace Sys2Proof.Machine

/-- Settles O3: the payload and its word evaluate. -/
theorem encRdGivesReadRequest : Obligations.EncRdGivesReadRequest := ⟨fun _ => rfl, rfl⟩

/-- Settles O4: the identifier's byte has the integer's value, so its word is the integer's. -/
theorem encWrChecksThenPacks : Obligations.EncWrChecksThenPacks := by
  refine fun s n => ⟨fun h1 h32 => ⟨newIdByte n, newIdByte_toNat h1 h32, exec_encWr_inRange h1 h32 s, ?_⟩,
    fun h => exec_encWr_outOfRange h s⟩
  rw [← zeroExtend_newIdByte h1 h32]
  exact word_writeRequest (newIdByte n)

/-- Settles O5: the frame passes every test and its direction flag is READ_FLAG. -/
theorem readReplyDecodes : Obligations.ReadReplyDecodes := fun _ _ b1 b3 b4 b5 b6 b7 =>
  congrArg Host.Outcome.next
    (showReply_of_decodePayload (decodePayload_readReply (p := ⟨0x79, b1, 0x01, b3, b4, b5, b6, b7⟩) rfl rfl))

/-- Settles O6: the frame passes every test and its direction flag is WRITE_FLAG. -/
theorem writeEchoDecodes : Obligations.WriteEchoDecodes := fun _ _ b1 b3 b4 b5 b6 b7 =>
  congrArg Host.Outcome.next
    (showReply_of_decodePayload (decodePayload_writeReply (p := ⟨0x79, b1, 0x00, b3, b4, b5, b6, b7⟩) rfl rfl))

/-- Settles O7: the length test comes first, and past it the first test failed gives the reason. -/
theorem invalidReplyFirstReason : Obligations.InvalidReplyFirstReason := by
  refine fun s a e => ⟨fun raw hlen => ?_, fun b0 b1 b2 b3 b4 b5 b6 b7 h => ?_⟩
  · rw [exec, execDecRplyInvalid, showReply, decRply_badLength hlen]
    rfl
  · exact congrArg Host.Outcome.next
      (showReply_of_decodePayload (decodePayload_invalid (p := ⟨b0, b1, b2, b3, b4, b5, b6, b7⟩) h))

/-- Settles O30: a row completes where it is enabled and is refused elsewhere, and REQ_ID without a value equals no echo. -/
theorem enabledRowsComplete : Obligations.EnabledRowsComplete := by
  refine ⟨fun _ _ => exec_completes, fun i s => ?_, fun s arb raw e hs hd hreq => ?_⟩
  · cases hen : enabledIn s.state i with
    | true => exact .inl (exec_completes hen)
    | false => exact .inr (exec_refused hen)
  · rw [exec, execRxWrite, onlyIn_enabled hs, hd, hreq]
    rfl

/-- Settles O41: the ports test `new_id` as ENC_WR does, and their outcome is DEC_RPLY's. -/
theorem codecPortsComputeOperations : Obligations.CodecPortsComputeOperations := by
  intro m p
  simp only [fcPorts, fcOutcome_eq_decRply, encodeWrite_toNat]
  refine ⟨rfl, ?_, ?_, fun c a h => ?_, fun e h => ?_, fun f h => ?_⟩
  · split
    · exact congrArg some (word_writeRequest p.newId).symm
    · rfl
  · split <;> simp
  · rw [h]
    exact ⟨rfl, rfl, rfl, rfl, rfl⟩
  · rw [h]
    exact ⟨rfl, rfl, rfl, rfl, rfl⟩
  · rw [h]
    cases f <;> exact ⟨rfl, rfl, rfl, rfl, rfl⟩

/-- Settles O42: every reader of a frame goes through DEC_RPLY, which sees the bytes below `rx_len` alone. -/
theorem bytesPastLengthIgnored : Obligations.BytesPastLengthIgnored := by
  intro f g hlen hbytes
  have hdec := decRply_port_congr hlen hbytes
  refine ⟨fun m p => ?_, fun s a e rest => ?_, fun s p rest => ⟨rfl, ?_⟩⟩
  · simp only [fcPorts, fcOutcome_eq_decRply, hdec]
  · rw [step_cons_of_decode rfl, step_cons_of_decode rfl, exec_decodeReply, exec_decodeReply, showReply, showReply, hdec]
  · obtain hsame | ⟨hf, hg⟩ := decodeSeq_rx_cases s.state p f g
    · rw [step_congr_decode (x := .seq _) (y := .seq _) hsame]
    · rw [step_cons_of_decode (x := .seq _) hf, step_cons_of_decode (x := .seq _) hg]
      exact sameOutcome_exec_rxRow (s := { s with inputs := rest }) (hdec _ _ _) s.state

end Sys2Proof.Machine
end

section
/-! PROOFS. The sequencer's rows read off R68's table, and what the table says of the run's end, its bus accesses and the
codes of its states. -/

namespace Sys2Proof.Machine

/-! ## R68's table is what the sequencer does -/

/-- Every transition of the table is taken (R68). -/
theorem exec_of_tableStep {i : Instr} {s t : State} (h : TableStep s i t) : exec i s = .next t := by
  cases h with
  | row1 hs | row2 hs | row3 hs | row7 hs | row11 hs => exact onlyIn_enabled hs
  | row4 _ _ _ _ hs hd | row6 _ _ _ hs hd =>
    rw [exec, execRxRead, onlyIn_enabled hs, ← State.decodes, hd]
    rfl
  | row5 _ _ f hs hd =>
    rw [exec, execRxRead, onlyIn_enabled hs, ← State.decodes, hd]
    cases f <;> rfl
  | row8 _ _ hs hout =>
    rw [exec, execProceedWrite, onlyIn_enabled hs, encodeWrite_outOfRange hout]
    rfl
  | row9 _ hs h1 h32 | row10 _ hs h1 h32 =>
    rw [exec, execProceedWrite, onlyIn_enabled hs, encodeWrite_inRange h1 h32]
    rfl
  | row12 _ _ _ hs hd hr =>
    rw [exec, execRxWrite, onlyIn_enabled hs, ← State.decodes, hd]
    exact if_pos hr
  | row13 _ _ _ hs hd hr =>
    rw [exec, execRxWrite, onlyIn_enabled hs, ← State.decodes, hd]
    exact if_neg hr
  | row14 _ _ f hs hd =>
    rw [exec, execRxWrite, onlyIn_enabled hs, ← State.decodes, hd]
    cases f <;> rfl
  | row15 _ _ _ _ hs hd =>
    rw [exec, execRxWrite, onlyIn_enabled hs, ← State.decodes, hd]
    rfl

/-- A sequencer row other than RESET gets to a next state by a transition of the table alone (R68). -/
theorem tableStep_of_exec {i : Instr} {s t : State} (hcodec : isCodecRow i = false) (hreset : i ≠ .reset)
    (h : exec i s = .next t) : TableStep s i t := by
  obtain ⟨_, hi, -⟩ | ⟨hi, -⟩ | hst := exec_next_cases h
  · rw [hcodec] at hi
    cases hi
  · exact absurd hi hreset
  · exact hst

/-- A row takes a transition of the table only in the states that enable it (R77). -/
theorem tableStep_enabledIn {i : Instr} {s t : State} (h : TableStep s i t) : enabledIn s.state i = true := by
  by_contra hen
  cases (exec_of_tableStep h).symm.trans (exec_refused (Bool.eq_false_iff.2 hen))

/-- Every transition of the table raises the code of STATE (R16, R68). -/
theorem tableStep_code_lt {i : Instr} {s t : State} (h : TableStep s i t) : s.state.code < t.state.code := by
  cases h with
  | row1 hs | row2 hs | row3 hs | row4 _ _ _ _ hs | row5 _ _ _ hs | row6 _ _ _ hs | row7 hs | row8 _ _ hs | row9 _ hs
  | row10 _ hs | row11 hs | row12 _ _ _ hs | row13 _ _ _ hs | row14 _ _ _ hs | row15 _ _ _ _ hs =>
    simp [hs, SeqState.code]

/-! ## The end of a run -/

theorem ended_cases {s : State} (h : s.ended = true) : s.state = .done ∨ s.state = .aborted := by
  simpa [State.ended] using h

/-- A run that ends in DONE shows whether its write was confirmed (R76). -/
theorem terminalCondition_done {s : State} (h : RegsInv s) (hs : s.state = .done) :
    ∃ c, terminalCondition s = some c := by
  obtain ⟨herr, -⟩ := regsInv_clean h (by simp [hs])
  cases hw : s.wrIssued <;> simp [terminalCondition, hs, herr, hw]

/-- A run that ends in ABORTED shows its error, with WR_ISSUED as that error admits (R76). -/
theorem terminalCondition_aborted {s : State} (h : RegsInv s) (hs : s.state = .aborted) :
    ∃ c, terminalCondition s = some c := by
  cases herr : s.err with
  | noError => exact absurd herr (h.errAborted.2 hs)
  | invalidArgument => simp [terminalCondition, hs, herr, h.errUnsent (.inl herr)]
  | transportError => simp [terminalCondition, hs, herr, h.errUnsent (.inr herr)]
  | writeNotConfirmed => simp [terminalCondition, hs, herr, h.errSent herr]
  | noReply | invalidReply => cases hw : s.wrIssued <;> simp [terminalCondition, hs, herr, hw]

/-! ## The bus accesses of a run -/

/-- In DONE with WR_ISSUED = 1 the run's accesses end in the write request for REQ_ID and its echo (R81). -/
theorem runAccesses_confirmed {s : State} {l : List BusEvent} (h : RunAccesses s l) (hs : s.state = .done)
    (hw : s.wrIssued = true) :
    ∃ r arb raw older, l = .received arb raw :: s.writeSent r .ok :: older ∧ s.reqId = some r ∧
      s.confirmingFrame arb raw := by
  cases h with
  | confirmed _ _ r arb raw _ _ _ hr hecho => exact ⟨r, arb, raw, _, rfl, hr, hecho⟩
  | _ => simp_all

end Sys2Proof.Machine
end

section
/-! PROOFS. The ports of unit SEQ (R80): which row a command names, which commands are taken, and what is handed over. -/

namespace Sys2Proof.Machine

@[simp] theorem flagBit_eq_one_iff (b : Bool) : flagBit b = 1 ↔ b = true := by
  cases b <;> decide

@[simp] theorem flagBit_eq_zero_iff (b : Bool) : flagBit b = 0 ↔ b = false := by
  cases b <;> decide

/-! ## A step by what its input decodes to -/

theorem step_of_quiet {s : State} {x : Input} {rest : List Input} (hin : s.inputs = x :: rest)
    (hd : decode s.state x = .quiet) : step s = .next { s with inputs := rest } := by
  rw [step, takeInput_cons hin, hd]

theorem step_of_rejected {s : State} {x : Input} {rest : List Input} {e : DecodeError} (hin : s.inputs = x :: rest)
    (hd : decode s.state x = .rejected e) : step s = .refused (refusalOf e) := by
  rw [step, takeInput_cons hin, hd]

/-! ## Commands -/

theorem decodeCmd_names_row {p : SeqPorts} (hcmd : p.cmd ≠ 0) : ∃ i, decodeCmd p = .instr i := by
  have hcodes : ∀ c : BitVec 2, c ≠ 0 → c = 1 ∨ c = 2 ∨ c = 3 := by decide
  obtain h | h | h := hcodes p.cmd hcmd <;> simp [decodeCmd, h]

/-- Which row each code on `cmd` names (R80). -/
theorem decodeCmd_cases {p : SeqPorts} {i : Instr} (h : decodeCmd p = .instr i) :
    (p.cmd = 1 ∧ i = .start (.ofBit p.txResult)) ∨
      (p.cmd = 2 ∧ i = .proceedWrite p.cmdNewId.toNat (.ofBit p.txResult)) ∨ (p.cmd = 3 ∧ i = .declineWrite) := by
  unfold decodeCmd at h
  split at h
  · cases h; exact .inl ⟨‹_›, rfl⟩
  · split at h
    · cases h; exact .inr (.inl ⟨‹_›, rfl⟩)
    · split at h
      · cases h; exact .inr (.inr ⟨‹_›, rfl⟩)
      · cases h

/-- The port table enables a command where the operation table enables its row (R77, R80). -/
theorem enabledIn_of_decodeCmd {p : SeqPorts} {i : Instr} (h : decodeCmd p = .instr i) (st : SeqState) :
    enabledIn st i = cmdEnabled st p.cmd := by
  obtain ⟨hc, rfl⟩ | ⟨hc, rfl⟩ | ⟨hc, rfl⟩ := decodeCmd_cases h <;> cases st <;> simp [enabledIn, cmdEnabled, hc]

/-- Without reset a command is accepted exactly where its row is enabled (R77, R80). -/
theorem cmdAccepted_eq_enabledIn {s : State} {p : SeqPorts} {i : Instr} (hreset : p.reset = 0)
    (hi : decodeCmd p = .instr i) : cmdAccepted s p = enabledIn s.state i := by
  rw [enabledIn_of_decodeCmd hi, cmdAccepted, decide_eq_true hreset, Bool.true_and]

/-- Where a reply is awaited no command is enabled, and code 0 is enabled nowhere (R77, R80). -/
theorem cmdEnabled_imp {st : SeqState} {c : BitVec 2} (h : cmdEnabled st c = true) : st.awaits = false ∧ c ≠ 0 := by
  cases st with
  | idle | haveCurrentId =>
    refine ⟨rfl, ?_⟩
    rintro rfl
    cases h
  | awaitReadReply | awaitWriteReply | done | aborted => cases h

/-- An accepted command is what the ports decode to, whatever event stands beside it (R80). -/
theorem decode_of_cmdAccepted {s : State} {p : SeqPorts} (h : cmdAccepted s p = true) :
    ∃ i, decode s.state (.seq p) = .instr i ∧ decodeCmd p = .instr i := by
  simp only [cmdAccepted, Bool.and_eq_true, decide_eq_true_eq] at h
  obtain ⟨hreset, hen⟩ := h
  obtain ⟨hidle, hcmd⟩ := cmdEnabled_imp hen
  obtain ⟨i, hi⟩ := decodeCmd_names_row hcmd
  have hpick : pickSeq s.state p = .cmd := by simp_all [pickSeq]
  refine ⟨i, ?_, hi⟩
  simp only [decode, decodeSeq, hpick, hi]

theorem isEventRow_of_decodeEvent {st : SeqState} {p : SeqPorts} {i : Instr} (h : decodeEvent st p = .instr i) :
    isEventRow i = true := by
  unfold decodeEvent at h
  split at h
  · cases h
    unfold rxRow
    split <;> rfl
  · split at h
    · cases h
      unfold timeoutRow
      split <;> rfl
    · split at h <;> cases h

theorem reset_of_pickSeq_cmd {st : SeqState} {p : SeqPorts} (h : pickSeq st p = .cmd) : p.reset = 0 := by
  have hcases : ∀ b : BitVec 1, b = 1 ∨ b = 0 := by decide
  obtain hr | hr := hcases p.reset
  · rw [pickSeq, if_pos hr] at h
    cases h
  · exact hr

/-- A row that the ports name is RESET, an event's row, or the row of the command (R80). -/
theorem decode_seq_cases {st : SeqState} {p : SeqPorts} {i : Instr} (h : decode st (.seq p) = .instr i) :
    i = .reset ∨ isEventRow i = true ∨ (p.reset = 0 ∧ decodeCmd p = .instr i) := by
  simp only [decode, decodeSeq] at h
  cases hpick : pickSeq st p with
  | reset => rw [hpick] at h; cases h; exact .inl rfl
  | cmd => rw [hpick] at h; exact .inr (.inr ⟨reset_of_pickSeq_cmd hpick, h⟩)
  | event => rw [hpick] at h; exact .inr (.inl (isEventRow_of_decodeEvent h))
  | quiet => rw [hpick] at h; cases h

/-! ## What is handed to the transport -/

/-- An accepted START hands over the read request (R69). -/
theorem txPayload_start {s : State} {p : SeqPorts} (hacc : cmdAccepted s p = true) (hcmd : p.cmd = 1) :
    txPayload s p = some readRequest := by
  rw [txPayload, if_pos hacc, if_pos hcmd]

/-- An accepted PROCEED_WRITE hands over what ENC_WR makes of its operand: nothing out of range (R73, R103). -/
theorem txPayload_proceedWrite {s : State} {p : SeqPorts} (hacc : cmdAccepted s p = true) (hcmd : p.cmd = 2) :
    txPayload s p = encodeWrite p.cmdNewId.toNat := by
  simp [txPayload, hacc, hcmd, encodeWrite_toNat]

theorem txPayload_declineWrite {s : State} {p : SeqPorts} (hcmd : p.cmd = 3) : txPayload s p = none := by
  simp [txPayload, hcmd]

theorem cmdAccepted_of_txPayload {s : State} {p : SeqPorts} {q : Payload} (h : txPayload s p = some q) :
    cmdAccepted s p = true := by
  by_contra hacc
  rw [txPayload, if_neg hacc] at h
  cases h

/-- Out of range PROCEED_WRITE hands over nothing, accepted or not (R103). -/
theorem txPayload_of_encodeWrite_none {s : State} {p : SeqPorts} (hcmd : p.cmd = 2)
    (hnone : encodeWrite p.cmdNewId.toNat = none) : txPayload s p = none := by
  by_contra hsome
  obtain ⟨q, hq⟩ := Option.ne_none_iff_exists'.1 hsome
  exact hsome ((txPayload_proceedWrite (cmdAccepted_of_txPayload hq) hcmd).trans hnone)

/-- START sends the read request, whatever the transport answers (R69). -/
theorem tableStep_start_trace {tx : TxResult} {s t : State} (h : TableStep s (.start tx) t) :
    t.trace = .sent s.cfgArbId readRequest tx :: s.trace := by
  cases h with
  | row1 | row2 => rfl

/-- PROCEED_WRITE sends what ENC_WR makes of its operand, whatever the transport answers (R73). -/
theorem tableStep_proceedWrite_trace {n : Int} {tx : TxResult} {s t : State} {q : Payload}
    (h : TableStep s (.proceedWrite n tx) t) (hq : encodeWrite n = some q) :
    t.trace = .sent s.cfgArbId q tx :: s.trace := by
  obtain ⟨h1, h32, rfl⟩ := encodeWrite_eq_some hq
  cases h with
  | row8 _ _ _ hout => omega
  | row9 | row10 => rfl

/-- PROCEED_WRITE out of range leaves the record as it is (R73, R89). -/
theorem tableStep_proceedWrite_outOfRange_trace {n : Int} {tx : TxResult} {s t : State}
    (h : TableStep s (.proceedWrite n tx) t) (hn : encodeWrite n = none) : t.trace = s.trace := by
  have hout := encodeWrite_eq_none hn
  cases h with
  | row8 => rfl
  | row9 | row10 => omega

/-- No event sends anything. -/
theorem tableStep_eventRow_sends_nothing {i : Instr} {s t : State} (hi : isEventRow i = true) (h : TableStep s i t) :
    t.trace.filter BusEvent.isSend = s.trace.filter BusEvent.isSend := by
  cases h with
  | row1 | row2 | row7 | row8 | row9 | row10 => cases hi
  | row3 | row4 | row5 | row6 | row11 | row12 | row13 | row14 | row15 => rfl

/-- With a payload at the ports, a step hands it to the transport and adds nothing else to the record (R80). -/
theorem step_of_txPayload_some {s t : State} {p : SeqPorts} {rest : List Input} {q : Payload}
    (hq : txPayload s p = some q) (hin : s.inputs = .seq p :: rest) (hstep : step s = .next t) :
    t.trace = .sent s.cfgArbId q (.ofBit p.txResult) :: s.trace := by
  have hacc := cmdAccepted_of_txPayload hq
  obtain ⟨i, hd, hi⟩ := decode_of_cmdAccepted hacc
  rw [step_of_decode hin hd] at hstep
  obtain ⟨hcmd, rfl⟩ | ⟨hcmd, rfl⟩ | ⟨hcmd, -⟩ := decodeCmd_cases hi
  · rw [txPayload_start hacc hcmd] at hq
    cases hq
    exact tableStep_start_trace (s := { s with inputs := rest }) (tableStep_of_execStart hstep)
  · rw [txPayload_proceedWrite hacc hcmd] at hq
    exact tableStep_proceedWrite_trace (s := { s with inputs := rest }) (tableStep_of_execProceedWrite hstep) hq
  · rw [txPayload_declineWrite hcmd] at hq
    cases hq

/-- Without a payload at the ports, no transition that they name sends anything (R80). -/
theorem tableStep_of_txPayload_none {s t : State} {p : SeqPorts} {i : Instr} (hq : txPayload s p = none)
    (hd : decode s.state (.seq p) = .instr i) (hst : TableStep s i t) :
    t.trace.filter BusEvent.isSend = s.trace.filter BusEvent.isSend := by
  obtain rfl | hi | ⟨hreset, hi⟩ := decode_seq_cases hd
  · cases hst
  · exact tableStep_eventRow_sends_nothing hi hst
  · have hacc : cmdAccepted s p = true := (cmdAccepted_eq_enabledIn hreset hi).trans (tableStep_enabledIn hst)
    obtain ⟨hcmd, rfl⟩ | ⟨hcmd, rfl⟩ | ⟨-, rfl⟩ := decodeCmd_cases hi
    · rw [txPayload_start hacc hcmd] at hq
      cases hq
    · rw [txPayload_proceedWrite hacc hcmd] at hq
      rw [tableStep_proceedWrite_outOfRange_trace hst hq]
    · cases hst with
      | row7 => rfl

/-- Without a payload at the ports, a step sends nothing (R80). -/
theorem step_of_txPayload_none {s t : State} {p : SeqPorts} {rest : List Input} (hq : txPayload s p = none)
    (hin : s.inputs = .seq p :: rest) (hstep : step s = .next t) :
    t.trace.filter BusEvent.isSend = s.trace.filter BusEvent.isSend := by
  obtain rfl | ⟨_, _, -, rfl⟩ | ⟨_, rest', i, hin', hd, hexec⟩ := step_next_cases hstep
  · rfl
  · rfl
  · cases hin.symm.trans hin'
    obtain ⟨_, -, rfl⟩ | ⟨-, rfl⟩ | hst := exec_next_cases hexec
    · rfl
    · rfl
    · exact tableStep_of_txPayload_none (s := { s with inputs := rest }) hq hd hst

end Sys2Proof.Machine
end

section
/-! PROOFS. The obligations of the sequencer (41_sequencer.md). -/

namespace Sys2Proof.Machine

/-! ## What each row does -/

/-- Settles O11: rows 1 and 2 of R68's table. -/
theorem startSendsReadRequest : Obligations.StartSendsReadRequest :=
  fun _ hs => ⟨exec_of_tableStep (.row1 hs), exec_of_tableStep (.row2 hs)⟩

/-- Settles O12: row 3. -/
theorem timeoutReadIsNoReply : Obligations.TimeoutReadIsNoReply := fun _ hs => exec_of_tableStep (.row3 hs)

/-- Settles O13: rows 4, 5 and 6, one for each outcome of DEC_RPLY. -/
theorem rxReadRecordsOrAborts : Obligations.RxReadRecordsOrAborts := fun _ arb raw hs =>
  ⟨fun c a hd => exec_of_tableStep (.row4 arb raw c a hs hd),
    fun f hd => exec_of_tableStep (.row5 arb raw f hs hd),
    fun e hd => exec_of_tableStep (.row6 arb raw e hs hd)⟩

/-- Settles O14: row 7. -/
theorem declineEndsInDone : Obligations.DeclineEndsInDone := fun _ hs => exec_of_tableStep (.row7 hs)

/-- Settles O15: row 8 out of range; in range rows 9 and 10, whose identifier byte has the integer's value. -/
theorem proceedWriteChecksThenSends : Obligations.ProceedWriteChecksThenSends := fun _ n hs =>
  ⟨fun hout tx => exec_of_tableStep (.row8 n tx hs hout),
    fun h1 h32 => ⟨newIdByte n, newIdByte_toNat h1 h32, exec_of_tableStep (.row9 n hs h1 h32),
      exec_of_tableStep (.row10 n hs h1 h32)⟩⟩

/-- Settles O16: row 11. -/
theorem timeoutWriteIsNoReply : Obligations.TimeoutWriteIsNoReply := fun _ hs => exec_of_tableStep (.row11 hs)

/-- Settles O17: an echo of REQ_ID is row 12 and of another identifier row 13; the other outcomes are rows 14 and 15. -/
theorem rxWriteChecksEcho : Obligations.RxWriteChecksEcho := by
  refine fun s arb raw hs => ⟨fun e r hd hw hr => ?_, fun f hd => exec_of_tableStep (.row14 arb raw f hs hd),
    fun c a hd => exec_of_tableStep (.row15 arb raw c a hs hd)⟩
  have hreq : s.readReqId = some r := (readReqId_of_wrIssued hw).trans hr
  split
  · rename_i he
    exact exec_of_tableStep (.row12 arb raw e hs hd (he ▸ hreq))
  · rename_i he
    refine exec_of_tableStep (.row13 arb raw e hs hd fun hc => he ?_)
    exact Option.some.inj (hc.symm.trans hreq)

/-! ## Rules over all rows -/

/-- Settles O18: each row that one state alone enables is refused in the others. -/
theorem notEnabledIsRefused : Obligations.NotEnabledIsRefused := fun _ _ => exec_refused

/-- Settles O19: every transition of the table is taken, and no row of unit SEQ but RESET does anything else. -/
theorem sequencerIsTransitionTable : Obligations.SequencerIsTransitionTable :=
  fun _ _ _ hcodec hreset => ⟨tableStep_of_exec hcodec hreset, exec_of_tableStep⟩

/-- Settles O22: no transition of the table leaves an ended run, so RESET and the rows of unit FC remain. -/
theorem terminalLeftOnlyByReset : Obligations.TerminalLeftOnlyByReset := by
  intro i s t hended h
  obtain ⟨r, hcodec, rfl⟩ | ⟨hi, -⟩ | hst := exec_next_cases h
  · exact .inr ⟨hcodec, rfl⟩
  · exact .inl hi
  · rw [tableStep_not_ended hst] at hended
    cases hended

/-- Settles O26, by the rows of the table. -/
theorem stateCodeRises : Obligations.StateCodeRises :=
  fun _ _ _ hcodec hreset h => tableStep_code_lt (tableStep_of_exec hcodec hreset h)

/-! ## The end of a run and its bus accesses -/

/-- Settles O35, by the state in which the run ended. -/
theorem terminalConditionShown : Obligations.TerminalConditionShown := by
  intro s hinv hended
  obtain hs | hs := ended_cases hended
  · exact terminalCondition_done hinv hs
  · exact terminalCondition_aborted hinv hs

/-- Settles O36: each shape that R40 gives a run's accesses keeps the bounds. -/
theorem runIsBounded : Obligations.RunIsBounded := by
  intro s hinv
  have hacc := hinv.accesses
  generalize runTrace s.trace = l at hacc ⊢
  cases hacc with
  | idle => simp
  | reading | readNotSent | read | declined | readUnanswered | readRejected | outOfRange => simp [State.readSent]
  | writing | writeNotSent | confirmed | writeUnanswered | writeRejected => simp [State.readSent, State.writeSent]

/-- Settles O38, from the accesses of a confirmed run. -/
theorem confirmedMeansEchoed : Obligations.ConfirmedMeansEchoed := by
  intro s hinv hs hw
  obtain ⟨r, arb, raw, older, hrun, hr, r', hd, hr'⟩ := runAccesses_confirmed hinv.accesses hs hw
  cases hr.symm.trans hr'
  exact ⟨r, arb, raw, hr, by simp [hrun], by simp [hrun], hd⟩

/-! ## The ports -/

/-- Settles O43: a payload at the ports is what a step sends, and it is ENC_WR's, which has none where it raises its
fault. -/
theorem txPortsMatchBus : Obligations.TxPortsMatchBus := by
  refine fun s p => ⟨fun t rest hin hstep => ⟨fun hvalid => ?_, fun hvalid => ?_⟩, fun q hcmd hid hfault => ?_⟩
  · obtain ⟨q, hq⟩ := Option.isSome_iff_exists.1 ((flagBit_eq_one_iff _).1 hvalid)
    exact ⟨q, congrArg (Option.map Payload.word) hq, step_of_txPayload_some hq hin hstep⟩
  · have hq := Option.isSome_eq_false_iff.1 ((flagBit_eq_zero_iff _).1 hvalid)
    rw [Option.isNone_iff_eq_none] at hq
    exact ⟨congrArg (Option.map Payload.word) hq, step_of_txPayload_none hq hin hstep⟩
  · obtain ⟨-, -, hnone, -⟩ := codecPortsComputeOperations s.cfgIdMask q
    refine (flagBit_eq_zero_iff _).2 ?_
    rw [txPayload_of_encodeWrite_none hcmd (hid ▸ hnone.1 hfault)]
    rfl

/-- Settles O44: an accepted command's row is enabled and completes; any other command's row is refused. -/
theorem cmdAcceptMeansNotRefused : Obligations.CmdAcceptMeansNotRefused := by
  intro s p rest hin hreset hevent hcmd
  obtain ⟨i, hi⟩ := decodeCmd_names_row hcmd
  have hstep : step s = exec i { s with inputs := rest } :=
    step_of_decode hin ((decode_cmd_alone s.state hreset hevent hcmd).trans hi)
  have hport : cmdAccepted s p = enabledIn s.state i := cmdAccepted_eq_enabledIn hreset hi
  rw [hstep]
  refine ⟨fun h => exec_completes ?_, fun h => ⟨mnemonic i, exec_refused (s := { s with inputs := rest }) ?_⟩⟩
  · exact hport ▸ (flagBit_eq_one_iff _).1 h
  · exact hport ▸ (flagBit_eq_zero_iff _).1 h

/-- Settles O47: the event code 3 names no row. -/
theorem unusedEventCodeRefused : Obligations.UnusedEventCodeRefused := by
  intro s p rest hin hreset hcmd hevent
  have hd : decode s.state (.seq p) = .rejected .unusedRxEvent := by
    rw [decode_event_alone s.state hreset hcmd (by simp [hevent])]
    simp [decodeEvent, hevent]
  exact step_of_rejected hin hd

/-- Settles O48, by what the input decodes to. -/
theorem stepRunsDecodedRow : Obligations.StepRunsDecodedRow := by
  refine fun s => ⟨fun hin => ?_, fun x rest hin => ⟨fun i => step_of_decode hin, step_of_quiet hin,
    fun e => step_of_rejected hin⟩⟩
  rw [step, takeInput_nil hin]

/-- Settles O53: each port is its register under the codes of R16, R17 and R18. -/
theorem statusPortsShowRegisters : Obligations.StatusPortsShowRegisters :=
  fun _ _ => ⟨rfl, rfl, rfl, rfl, rfl, rfl, rfl, rfl, rfl⟩

end Sys2Proof.Machine
end

section
/-! PROOFS. The obligations of the errors (60_exceptions.md): what entering ABORTED writes, and how the outputs tell the
ends of a run apart. -/

namespace Sys2Proof.Machine

/-! ## Into ABORTED -/

/-- Settles O20: the error entry is one record update (R90). -/
theorem errorEntry : Obligations.ErrorEntry := fun _ => ⟨rfl, rfl, rfl, rfl, rfl, rfl, rfl, rfl, rfl⟩

/-- A transition of the table into ABORTED writes STATE, ERR and REASON alone, beside the bus record (R90). -/
theorem tableStep_into_aborted {i : Instr} {s t : State} (h : TableStep s i t) (ht : t.state = .aborted) :
    ∃ e r tr, t = { s with state := .aborted, err := e, reason := r, trace := tr } ∧ e ≠ .noError := by
  cases h with
  | row1 | row4 | row7 | row9 | row12 => cases ht
  | row2 | row3 | row5 | row6 | row8 | row10 | row11 | row13 | row14 | row15 => exact ⟨_, _, _, rfl, nofun⟩

/-- Settles O21: a row of unit FC keeps STATE and RESET leaves IDLE, so the row took a transition of the table. -/
theorem abortKeepsData : Obligations.AbortKeepsData := by
  intro i s t hs h ht
  obtain ⟨r, -, rfl⟩ | ⟨-, rfl⟩ | hst := exec_next_cases h
  · exact absurd ht hs
  · cases ht
  · obtain ⟨e, r, tr, rfl, he⟩ := tableStep_into_aborted hst ht
    exact ⟨rfl, rfl, rfl, rfl, rfl, rfl, rfl, rfl, he⟩

/-! ## The codes at the status ports -/

@[simp] theorem seqState_code_inj {a b : SeqState} : a.code = b.code ↔ a = b := by
  cases a <;> cases b <;> decide

@[simp] theorem err_code_inj {a b : Err} : a.code = b.code ↔ a = b := by
  cases a <;> cases b <;> decide

@[simp] theorem reason_code_inj {a b : Reason} : a.code = b.code ↔ a = b := by
  cases a <;> cases b <;> decide

@[simp] theorem flagBit_inj {a b : Bool} : flagBit a = flagBit b ↔ a = b := by
  cases a <;> cases b <;> decide

/-! ## The lines of R76's table -/

/-- STATE, ERR, REASON and WR_ISSUED in each line of R76's table. -/
def TerminalCondition.shown : TerminalCondition → SeqState × Err × Reason × Bool
  | .readOnly => (.done, .noError, .noReason, false)
  | .writeConfirmed => (.done, .noError, .noReason, true)
  | .transportFailure => (.aborted, .transportError, .noReason, false)
  | .noReadReply => (.aborted, .noReply, .noReason, false)
  | .invalidReadReply r => (.aborted, .invalidReply, r, false)
  | .identifierOutOfRange => (.aborted, .invalidArgument, .noReason, false)
  | .noEcho => (.aborted, .noReply, .noReason, true)
  | .invalidEcho r => (.aborted, .invalidReply, r, true)
  | .echoMismatch => (.aborted, .writeNotConfirmed, .noReason, true)

theorem reason_eq_noReason {s : State} (h : RegsInv s) (herr : s.err ≠ .invalidReply) : s.reason = .noReason :=
  not_not.1 (mt h.reasonInvalid.1 herr)

/-- A line of the table fixes what the registers show: REASON is a line's own with InvalidReply, and 0 otherwise (R18). -/
theorem terminalCondition_shown {s : State} {c : TerminalCondition} (h : RegsInv s) (hc : terminalCondition s = some c) :
    (s.state, s.err, s.reason, s.wrIssued) = c.shown := by
  have hreason := reason_eq_noReason h
  unfold terminalCondition at hc
  split at hc <;> cases hc <;> simp_all [TerminalCondition.shown]

/-- Two ended runs are in the same line of the table exactly when they agree on STATE, ERR, REASON and WR_ISSUED. -/
theorem terminalCondition_eq_iff {s s' : State} (h : RegsInv s) (h' : RegsInv s') (hended : s.ended = true) :
    terminalCondition s = terminalCondition s' ↔
      s.state = s'.state ∧ s.err = s'.err ∧ s.reason = s'.reason ∧ s.wrIssued = s'.wrIssued := by
  constructor
  · intro heq
    obtain ⟨c, hc⟩ := terminalConditionShown s h hended
    have hshown := (terminalCondition_shown h hc).trans (terminalCondition_shown h' (heq ▸ hc)).symm
    simpa using hshown
  · rintro ⟨hs, herr, hreason, hwr⟩
    simp only [terminalCondition, hs, herr, hreason, hwr]

/-- Settles O54: the ports show the four registers under codes that are distinct. -/
theorem outputsTellTerminalConditions : Obligations.OutputsTellTerminalConditions := by
  intro s s' p p' h h' hended _
  rw [terminalCondition_eq_iff h h' hended]
  simp [seqPorts]

end Sys2Proof.Machine
end

section
/-! PROOFS. The obligations of reset and the hazards (70_reset_and_hazards.md): RESET, the block's own frame received as a
reply, and when the remote identifier is unknown. -/

namespace Sys2Proof.Machine

/-! ## RESET and the block's own frame -/

/-- Settles O2: RESET is one record update (R26, R96). -/
theorem resetFromAnyState : Obligations.ResetFromAnyState := fun _ => rfl

/-- The write request for an identifier, received at the awaited arbitration identifier, decodes as its echo (R62, R101). -/
theorem decodes_writeRequest (s : State) (r : Byte) : s.decodes s.cfgArbId (writeRequest r).bytes = .writeEcho r :=
  decodePayload_writeReply rfl rfl

/-- Settles O29: the write request decodes as the echo that row 12 of R68's table waits for. -/
theorem ownWriteRequestConfirms : Obligations.OwnWriteRequestConfirms := fun s r hs hw hr =>
  exec_of_tableStep (.row12 _ _ r hs (decodes_writeRequest s r) ((readReqId_of_wrIssued hw).trans hr))

/-- Event RX with the eight bytes of a payload at the ports names the row of RX with that payload (R80). -/
theorem decode_rxPayload_ports (st : SeqState) (arb : Arb) (p : Payload) :
    decode st (.seq { SeqPorts.quiet with rxEvent := 1, rxArb := arb, rx := ⟨8, p.word, 0, []⟩ }) =
      .instr (rxRow st arb p.bytes) := by
  have hraw : RxFrame.raw ⟨8, p.word, 0, []⟩ = p.bytes := by
    rw [RxFrame.raw_of_eight rfl, Payload.ofWord_word]
  rw [decode_event_alone st rfl rfl (by decide : (1 : BitVec 2) ≠ 0), decodeEvent, if_pos rfl, hraw]

/-- Settles O57: the three inputs that deliver the frame decode to one row, and another user's access to none. -/
theorem ownFrameIndistinguishable : Obligations.OwnFrameIndistinguishable := fun s arb p _ rest =>
  have hports := decode_rxPayload_ports s.state arb p
  ⟨step_congr_decode (s := s) rfl rest, step_congr_decode (s := s) (x := .ownFrame arb p) hports.symm rest,
    step_of_quiet rfl rfl⟩

/-! ## What a run's record tells of the remote identifier (R25, R99) -/

/-- After a read reply it is known, whatever came before the run (R99). -/
theorem writeUnsettled_readReply {s : State} {arb : Arb} {raw : List Byte} (h : s.readReplyFrame arb raw) (tx : TxResult)
    (older : List BusEvent) :
    writeUnsettled s.cfgIdMask s.cfgArbId (.received arb raw :: s.readSent tx :: older) = false := by
  obtain ⟨c, a, hd, -⟩ := h
  simp [settles_readSent hd]

/-- After the echo of REQ_ID it is known (R81, R99). -/
theorem writeUnsettled_confirmed {s : State} {arb : Arb} {raw : List Byte} {r : Byte} (h : s.confirmingFrame arb raw)
    (hr : s.reqId = some r) (tx : TxResult) (older : List BusEvent) :
    writeUnsettled s.cfgIdMask s.cfgArbId (.received arb raw :: s.writeSent r tx :: older) = false := by
  obtain ⟨r', hd, hr'⟩ := h
  cases hr.symm.trans hr'
  simp [(settles_writeSent_iff r tx older).2 hd]

/-- What the record of a run with a valid read reply tells, whatever came before the run: each shape that R40 gives the
accesses leaves the identifier unknown exactly where its write request stands unsettled. -/
theorem runAccesses_writeUnsettled_iff {s : State} {l : List BusEvent} (hacc : RunAccesses s l) (hregs : RegsInv s)
    (hcur : s.curValid = true) (older : List BusEvent) :
    writeUnsettled s.cfgIdMask s.cfgArbId (l ++ older) = true ↔
      s.state = .awaitWriteReply ∨ (s.state = .aborted ∧ (s.wrIssued = true ∨ s.err = .transportError)) := by
  cases hacc with
  | idle hs => cases (hregs.curBefore (.inl hs)).symm.trans hcur
  | reading hs => cases (hregs.curBefore (.inr hs)).symm.trans hcur
  | readNotSent _ _ hc | readUnanswered _ _ hc | readRejected _ _ _ _ hc => cases hc.symm.trans hcur
  | read _ _ hs hread | declined _ _ hs _ hread => simp [writeUnsettled_readReply hread, hs]
  | outOfRange _ _ hs herr hread =>
    simp [writeUnsettled_readReply hread, hs, herr, hregs.errUnsent (.inl herr)]
  | confirmed _ _ r _ _ hs _ _ hr hecho => simp [writeUnsettled_confirmed hecho hr, hs]
  | writing _ _ r hs => simp [hs]
  | writeNotSent _ _ r hs herr => simp [hs, herr]
  | writeUnanswered _ _ r hs herr =>
    have hw := hregs.errPhase (.inl herr)
    simp [hs, ← hw, hcur]
  | writeRejected _ _ r _ _ hs herr _ hr hnot =>
    have hw : s.wrIssued = true := herr.elim (fun h => hregs.errPhase (.inr h) ▸ hcur) hregs.errSent
    simp [settles_writeSent_eq_false hnot hr, hs, hw]

theorem remoteUnknown_iff {s : State} (h : BlockInv s) (hcur : s.curValid = true) :
    s.remoteUnknown = true ↔
      s.state = .awaitWriteReply ∨ (s.state = .aborted ∧ (s.wrIssued = true ∨ s.err = .transportError)) := by
  obtain ⟨older, htrace⟩ := runTrace_append s.trace
  rw [State.remoteUnknown, htrace]
  exact runAccesses_writeUnsettled_iff h.accesses h.regs hcur older

/-- RESET settles nothing: its mark is no bus access (R96, R99). -/
theorem remoteUnknown_reset (s : State) : s.clearRegs.markReset.remoteUnknown = s.remoteUnknown := rfl

/-- Settles O55: the run's record decides, and RESET adds to it a mark that settles nothing. -/
theorem remoteUnknownAfterWrite : Obligations.RemoteUnknownAfterWrite := by
  refine fun s hinv => ⟨remoteUnknown_iff hinv, fun hs => ?_⟩
  have hcur : s.curValid = true := hinv.regs.curAfter (.inr (.inl hs))
  have hunknown : s.remoteUnknown = true := (remoteUnknown_iff hinv hcur).2 (.inl hs)
  exact ⟨_, rfl, (remoteUnknown_reset s).trans hunknown, rfl, rfl⟩

/-! ## What can settle an unknown remote identifier (R81, R99) -/

/-- A frame that is no read reply settles no read request (R71, R99). -/
theorem settles_readSent_eq_false {s : State} {arb : Arb} {raw : List Byte} (h : ∀ c a, s.decodes arb raw ≠ .readOk c a)
    (tx : TxResult) (older : List BusEvent) :
    settles s.cfgIdMask s.cfgArbId arb raw (s.readSent tx :: older) = false := by
  simp only [settles, State.readSent]
  cases hd : decRply s.cfgIdMask arb raw s.cfgArbId with
  | readOk c a => exact absurd hd (h c a)
  | writeEcho e => exact decide_eq_false (writeRequest_ne_readRequest e).symm
  | invalid f => rfl

/-- While a read reply is awaited, a frame that is none leaves the remote identifier unknown. -/
theorem writeUnsettled_readRejected {s : State} {arb : Arb} {raw : List Byte} (h : BlockInv s)
    (hs : s.state = .awaitReadReply) (hnot : ∀ c a, s.decodes arb raw ≠ .readOk c a) (hunknown : s.remoteUnknown = true) :
    writeUnsettled s.cfgIdMask s.cfgArbId (.received arb raw :: s.trace) = true := by
  obtain ⟨older, htrace⟩ := runTrace_append s.trace
  rw [runAccesses_awaitRead h.accesses hs] at htrace
  have hsettles : settles s.cfgIdMask s.cfgArbId arb raw s.trace = false :=
    htrace ▸ settles_readSent_eq_false hnot .ok older
  rw [writeUnsettled_received, hsettles]
  exact hunknown

/-- A transition of R68's table leaves an unknown remote identifier unknown, but for rows 4 and 12. -/
theorem tableStep_remoteUnknown {i : Instr} {s t : State} (hinv : BlockInv s) (hunknown : s.remoteUnknown = true)
    (hst : TableStep s i t) :
    t.remoteUnknown = true ∨ (s.state = .awaitReadReply ∧ t.state = .haveCurrentId) ∨
      (s.state = .awaitWriteReply ∧ t.state = .done) := by
  have hinv' : BlockInv t := exec_blockInv hinv (exec_of_tableStep hst)
  cases hst with
  | row4 _ _ _ _ hs => exact .inr (.inl ⟨hs, rfl⟩)
  | row12 _ _ _ hs => exact .inr (.inr ⟨hs, rfl⟩)
  | row1 | row2 => exact .inl ((writeUnsettled_readSent ..).trans hunknown)
  | row3 | row7 | row8 => exact .inl hunknown
  | row5 _ _ _ hs hd | row6 _ _ _ hs hd =>
    exact .inl (writeUnsettled_readRejected hinv hs (fun _ _ hd' => nomatch hd.symm.trans hd') hunknown)
  | row9 | row10 => exact .inl (writeUnsettled_cons_writeSent ..)
  | row11 hs | row13 _ _ _ hs | row14 _ _ _ hs | row15 _ _ _ _ hs =>
    exact .inl (unknownRemoteMeansUnconfirmedWrite _ hinv' rfl (hinv.regs.wrAfter hs)).1

/-- Settles O56: the rows of unit FC and RESET settle nothing, and of R68's table only rows 4 and 12 can. -/
theorem remoteUnknownUntilReply : Obligations.RemoteUnknownUntilReply := by
  intro i s t hinv hunknown h
  obtain ⟨r, -, rfl⟩ | ⟨-, rfl⟩ | hst := exec_next_cases h
  · exact .inl hunknown
  · exact .inl ((remoteUnknown_reset s).trans hunknown)
  · exact tableStep_remoteUnknown hinv hunknown hst

end Sys2Proof.Machine
end
